-- ==== Sys2Proof/Word.lean ====
section
/-! DEFINITION. Sys2Proof/Word.lean: the value types of the block (00_scope.md R9, 30_encoding.md R74). Bits are `Bool`
(true = 1, R9); bytes, addresses on the wires and operand coordinates are bit vectors; pin names are indices. -/

namespace Sys2Proof

/-- A byte; bit 0 is its least significant bit (R9). -/
abbrev Byte := BitVec 8

/-- A 7-bit device address on the two wires (20_memory.md R50). -/
abbrev DeviceAddr := BitVec 7

/-- A 16-bit coordinate operand; its value is `sext_16` of it (30_encoding.md R74). -/
abbrev Coord := BitVec 16

/-- An input pin IP0 to IP9 (10_state.md R30). -/
abbrev InPin := Fin 10

/-- An output pin OP0 to OP5 (10_state.md R31). -/
abbrev OutPin := Fin 6

end Sys2Proof
end

