-- ==== Sys2Proof/Syntax.lean ====
section
/-! DEFINITION. Sys2Proof/Syntax.lean: the 20 operations of 30_encoding.md R71 with the operands of R73 and R74, and the
reasons for which a command word has no meaning (R75). -/

namespace Sys2Proof

/-- The operations of the block, one constructor per row of R71, operands in the order of the row's format (R73). -/
inductive Instr where
  /-- BOOT, 0x01, format Z (46_sequencer_and_clients.md R180). -/
  | boot
  /-- CYCLE, 0x02, format Z (R182). -/
  | cycle
  /-- RDS p, 0x10, format P (40_sampler.md R101). -/
  | rds (p : InPin)
  /-- ROR m, 0x11, format M: bit i of the mask selects IPi (R102, R74). -/
  | ror (m : BitVec 10)
  /-- BSTART, 0x20, format Z (41_bit_protocol.md R111). -/
  | bstart
  /-- BSTOP, 0x21, format Z (R112). -/
  | bstop
  /-- BWRITE b, 0x22, format B (R113). -/
  | bwrite (b : Byte)
  /-- BPROBE, 0x23, format Z (R114). -/
  | bprobe
  /-- DINIT, 0x30, format Z (42_display_controller.md R131). -/
  | dinit
  /-- DCLEAR, 0x31, format Z (R132). -/
  | dclear
  /-- DSETPIX x, y, on, 0x32, format XY (R133). -/
  | dsetpix (x y : Coord) (on : Bool)
  /-- DHLINE x0, x1, y, 0x33, format L (R134). -/
  | dhline (x0 x1 y : Coord)
  /-- DVLINE x, y0, y1, 0x34, format L (R135). -/
  | dvline (x y0 y1 : Coord)
  /-- DFLUSH, 0x35, format Z (R137). -/
  | dflush
  /-- DCHAR x, y, k, c, 0x40, format C (43_text_renderer.md R152). -/
  | dchar (x y : Coord) (k c : Byte)
  /-- DTEXT x, y, k, s, 0x41, format T (R153). -/
  | dtext (x y : Coord) (k : Byte) (str : List Byte)
  /-- GEVAL, 0x50, format Z (44_gate_engine.md R161). -/
  | geval
  /-- CLOAD, 0x60, format Z (45_config_fsm.md R171). -/
  | cload
  /-- CSTEP b, 0x61, format V (R172). -/
  | cstep (b : Bool)
  /-- NVUPD v, 0x62, format B (R173). -/
  | nvupd (v : Byte)
  deriving DecidableEq, Repr

/-- Why a command word has no meaning (30_encoding.md R75, 93_implementation_defined.md U1). -/
inductive DecodeError where
  /-- The first byte is an operation code that R71 does not list. -/
  | reservedCode (b : Byte)
  /-- A padding bit written `0` in the pattern of R73 is 1. -/
  | nonzeroPadding
  /-- A pin index 10 to 15. -/
  | reservedPin
  /-- The bytes end before the length that R73 and R76 give the command (log 3). -/
  | truncated
  deriving DecidableEq, Repr

end Sys2Proof
end

