-- ==== Sys2Proof/Config.lean ====
section
/-! DEFINITION. Sys2Proof/Config.lean: what the source leaves to configuration (00_scope.md R8), as ONE opaque constant of a
structure whose types carry the constraints of 70_reset_and_hazards.md R222 (log 9), and the free values of the model
(logs 7 and 8). Nothing can be proved of an opaque constant beyond its type, so a claim holds for every configuration. -/

namespace Sys2Proof

/-- GateFamily, the closed enumeration of 30_encoding.md R84, in code order 0 to 4 (log 17). -/
inductive Family where
  | andNand | orNor | xorXnor | majMin | dualNot
  deriving DecidableEq, Repr, Inhabited

/-- A scale factor: an integer from 1 to 255 (43_text_renderer.md R151), held as its predecessor. -/
structure Scale where
  pred : Fin 255
  deriving DecidableEq, Repr, Inhabited

/-- A string of DTEXT: 0 to 255 characters (43_text_renderer.md R153, 30_encoding.md R70, R74; log 10). -/
structure Text where
  chars : List Byte
  length_le : chars.length ≤ 255
  deriving DecidableEq, Repr

/-- One drawing operation of the Diagram Renderer: the five kinds of 46_sequencer_and_clients.md R184 and no other, each
with operands in the ranges of its operation: 16-bit coordinates, a scale that R151 allows and a string of at most 255
characters (R70, R74, R153; log 10). -/
inductive DrawOp where
  | setPix (x y : Coord) (on : Bool)
  | hline (x0 x1 y : Coord)
  | vline (x y0 y1 : Coord)
  | char (x y : Coord) (k : Scale) (c : Byte)
  | text (x y : Coord) (k : Scale) (str : Text)
  deriving DecidableEq, Repr, Inhabited

/-- An entry of `FONT`: a character code and exactly five column bytes, leftmost column first (30_encoding.md R89,
R222). -/
structure FontEntry where
  code : Byte
  columns : Vector Byte 5
  deriving DecidableEq, Repr

/-- The parameters of 00_scope.md R8, constrained as 70_reset_and_hazards.md R222 says. -/
structure Params where
  /-- `FACTORY_DEFAULT`, one of the five families. -/
  factoryDefault : Family
  /-- `NV_ADDR`, the one store address in use. -/
  nvAddr : Nat
  /-- `ADDR_A`, the first probe candidate. -/
  addrA : DeviceAddr
  /-- How far `ADDR_B` lies above `ADDR_A` modulo 128, less one: any value makes the two distinct. -/
  addrGap : Fin 127
  /-- `INIT_SEQ`. -/
  initSeq : List Byte
  /-- `WIN_SEQ`. -/
  winSeq : List Byte
  /-- `CMD_PREFIX`. -/
  cmdPrefix : List Byte
  /-- `DATA_PREFIX`. -/
  dataPrefix : List Byte
  /-- `FONT`, in list order. -/
  font : List FontEntry
  /-- `GLYPH_ADVANCE` less one: the advance is a positive integer. -/
  glyphAdvancePred : Nat
  /-- `SHORT_CIRCUIT` (40_sampler.md R102, U14). -/
  shortCircuit : Bool
  /-- `DIAGRAM`, from `(family, in1, in2, in3, Y, Yb)` to drawing operations (46_sequencer_and_clients.md R184). -/
  diagram : Family → Bool → Bool → Bool → Bool → Bool → List DrawOp
  /-- `T_SAMPLE`, a duration; no result depends on it (R12). -/
  tSample : Nat
  /-- `T_BIT`, a duration. -/
  tBit : Nat
  /-- `T_WARMUP`, a duration. -/
  tWarmup : Nat
  deriving Inhabited

/-- `ADDR_B`, the second probe candidate, distinct from `ADDR_A` (R8, R222). -/
def Params.addrB (P : Params) : DeviceAddr := P.addrA + 1 + BitVec.ofNat 7 P.addrGap.val

/-- `GLYPH_ADVANCE`, at least 1 (R8, R222). -/
def Params.glyphAdvance (P : Params) : Nat := P.glyphAdvancePred + 1

/-- The configuration of the device (R8). OPEN in the spec, so without a value here (log 9). -/
opaque Config.params : Params

/-- `Config.pinLevel n p`: the level the environment answers to the n-th pin read, of pin p, where State lists no answer.
A free value: 20_memory.md R58, U9 (log 8). -/
opaque Config.pinLevel : Nat → InPin → Bool

/-- The byte the non-volatile store holds when the first session begins: any value, U11 (log 7). -/
opaque Config.storedByte : Byte

/-- `FB_BYTES`, the size of the framebuffer (00_scope.md R7). -/
abbrev Config.fbBytes : Nat := 1024

end Sys2Proof
end

