-- ==== Sys2Proof/Machine/State.lean ====
section
/-! DEFINITION. Sys2Proof/Machine/State.lean: the whole state of the block (10_state.md R20), the trace of 00_scope.md R14,
the model's own input fields, and the state after reset (10_state.md R39). Plain data. -/

namespace Sys2Proof.Machine

/-- The configuration of an input pin: `IN` plain input, `IN_PU` input with pull-up, `OUT` output (00_scope.md R12). -/
inductive PinMode where
  | plain | pullUp | output
  deriving DecidableEq, Repr

/-- Who may act on pins IP7 and IP8 (10_state.md R34). -/
inductive Owner where
  | driver | sampler
  deriving DecidableEq, Repr

/-- The two protocol lines: the clock wire `CLK` and the data wire `DAT` (00_scope.md R17, 10_state.md R30). -/
inductive Wire where
  | clk | dat
  deriving DecidableEq, Repr

/-- The four conditions of the source's error taxonomy (60_exceptions.md R200; log 18). -/
inductive Condition where
  | e1 | e2 | e3 | e4
  deriving DecidableEq, Repr

/-- The externally visible actions (00_scope.md R14): `RD`, `REL`, `LOW`, `INP`, `OUT`, `NVR`, `NVW`. -/
inductive Event where
  | rd (p : InPin) (v : Bool)
  | rel (p : InPin)
  | low (p : InPin)
  | inp (p : InPin)
  | out (p : OutPin) (v : Bool)
  | nvr (a : Nat) (v : Byte)
  | nvw (a : Nat) (v : Byte)
  deriving DecidableEq, Repr

/-- A byte memory as (address, byte) pairs in one canonical form: strictly rising addresses, no blank entry. -/
abbrev Memory := List Host.Cell

/-- The block's state. Field by field: 10_state.md R20, but for `trace` (R14)
and the six fields of the model's own, each with the log entry named there. -/
structure State where
  /-- The active GateFamily (R23). -/
  family : Family
  /-- MODEL'S OWN: CLOAD has loaded `family` (R20, U2). A mark for claims; no operation reads it (log 5). -/
  familySet : Bool
  /-- DisplayPresence (R24). -/
  displayPresent : Bool
  /-- BPROBE has completed (R24). -/
  probed : Bool
  /-- The address latched by the probe (R25). -/
  dispAddr : DeviceAddr
  /-- The previous debounced button value (R26). -/
  prevBtn : Bool
  /-- `in[1]` (R27). -/
  in1 : Bool
  /-- `in[2]` (R27). -/
  in2 : Bool
  /-- `in[3]` (R27). -/
  in3 : Bool
  /-- `in[4]` (R27). -/
  in4 : Bool
  /-- MODEL'S OWN: a CYCLE has written `in[1..4]` (R27, U2). A mark for claims; no operation reads it (log 5). -/
  rowsSet : Bool
  /-- `Y` (R28). -/
  y : Bool
  /-- `Yb` (R28). -/
  yb : Bool
  /-- The framebuffer `fb[0..1023]` (R29; log 6). -/
  fb : Memory
  /-- MODEL'S OWN: a DCLEAR has written every byte of `fb` (R29, R223, U2; log 5). -/
  fbCleared : Bool
  /-- `pin_mode[IP0..IP9]` (R30). -/
  pinMode : Vector PinMode 10
  /-- `pin_out[IP7]`, the latch of the clock wire (R30). -/
  latchClk : Bool
  /-- `pin_out[IP8]`, the latch of the data wire (R30). -/
  latchDat : Bool
  /-- `out_pin[OP0..OP5]` (R31). -/
  outPin : Vector Bool 6
  /-- `nv[NV_ADDR]`, PersistedFamily (R32). -/
  nv : Byte
  /-- The result bit (R33). -/
  res : Bool
  /-- Who owns pins IP7 and IP8 (R34). -/
  owner : Owner
  /-- Every visible action since reset, in program order (00_scope.md R14; log 12). -/
  trace : List Event
  /-- MODEL'S OWN: command bytes that have arrived and are not yet executed (30_encoding.md R70; log 1). -/
  commands : List Byte
  /-- MODEL'S OWN: the environment's next answers to PinRead, in order (20_memory.md R58; log 8). -/
  pinAnswers : List Bool
  /-- MODEL'S OWN: the number of pin reads made, the index of the next free level (log 8). -/
  pinReads : Nat
  deriving DecidableEq, Repr

/-- The block has no fault: "no crash/halt states", no trap, no stuck state (60_exceptions.md R200, R207, 00_scope.md
R19). Nothing raises one, which is exact, neither safe nor unsafe. -/
inductive Fault where
  deriving DecidableEq, Repr

/-- The invocations outside the contract, to which the spec gives no meaning (00_scope.md R13,
93_implementation_defined.md U1 to U8; U2's reads of a register run, log 5). Each is SAFE: the model stops where the
spec gives no successor state. -/
inductive Refusal where
  /-- Raised by an arm of `exec` whose instruction has no meaning yet (none is left). Safe. -/
  | notModelled (mnemonic : String)
  /-- Raised by `step` on bytes that are no command word (R75, U1). Safe. -/
  | undecodable (e : DecodeError)
  /-- Raised by the drawing operations and DFLUSH: a byte of `fb` is read before the first DCLEAR (R29, R223, U2).
  Safe. -/
  | framebufferUnwritten
  /-- Raised by RDS, ROR and CYCLE: IP7 or IP8 is read while `owner = DRIVER` (R34, R101, R102, U3). Safe. -/
  | pinOwnedByDriver
  /-- Raised by every operation that drives the wires while `owner = SAMPLER` (R34, R110, U3). Safe. -/
  | wiresOwnedBySampler
  /-- Raised by BPROBE with `probed = 1` (R114, U4). Safe. -/
  | probeRunsOnce
  /-- Raised by BOOT with `probed = 1` (R180, U4). Safe. -/
  | bootRunsOnce
  /-- Raised by DCHAR and DTEXT with `k = 0` (R151, U5). Safe. -/
  | scaleZero
  /-- Raised by DINIT and DFLUSH with `display_present = 0` (R130, U6). Safe. -/
  | noDisplay
  /-- Raised by CSTEP with `display_present = 0` (R172, U7). Safe. -/
  | noButton
  /-- Raised by GEVAL with `probed = 0` (R161, U8). Safe. -/
  | topologyUndecided
  /-- Raised by CYCLE with `probed = 0` (R182, U8). Safe. -/
  | bootHasNotRun
  deriving DecidableEq, Repr

/-- What an operation answers. -/
abbrev Result := Host.Outcome State Fault Refusal

/-- The state after a reset that finds the byte `nv` in the store (10_state.md R39). R39 gives `display_present`,
`probed`, `prev_btn`, `owner`, the pin modes, the store and the trace; the other registers hold the values log 4 names
(DESIGN CHOICE), and an operation that reads one of them before a rule has written it reads that value (log 5). -/
def State.resetWith (nv : Byte) : State where
  family := .andNand
  familySet := false
  displayPresent := false
  probed := false
  dispAddr := 0
  prevBtn := false
  in1 := false
  in2 := false
  in3 := false
  in4 := false
  rowsSet := false
  y := false
  yb := false
  fb := []
  fbCleared := false
  pinMode := Vector.replicate 10 .plain
  latchClk := false
  latchDat := false
  outPin := Vector.replicate 6 false
  nv := nv
  res := false
  owner := .driver
  trace := []
  commands := []
  pinAnswers := []
  pinReads := 0

/-- The machine right after its first reset: the stored byte is any byte (U11; log 7). -/
def State.reset : State := State.resetWith Config.storedByte

end Sys2Proof.Machine
end

