-- ==== Sys2Proof/Machine/Ops.lean ====
section
/-! DEFINITION. Sys2Proof/Machine/Ops.lean: the named operations over pins, store, trace and framebuffer memory (00_scope.md
R11, R12, R14). The block takes no exception and returns from none (60_exceptions.md R200, R207), so there is no
exception entry here; its four silent conditions are `note` (R13, R200). -/

namespace Sys2Proof.Machine

/-! ### The framebuffer memory (20_memory.md R50 to R54) -/

/-- What an unlisted address reads as: 0x00, the byte DCLEAR writes (R132). Before the first DCLEAR nothing is read
(log 6). -/
def Memory.blank : Byte := 0

/-- `MemRead(FB, a, 1)` (R11). -/
def Memory.read : Memory → Nat → Byte
  | [], _ => Memory.blank
  | (b, w) :: rest, a => if a = b then w else Memory.read rest a

/-- List the byte `v` at `a`, in address order, in place of any entry there. -/
def Memory.put : Memory → Nat → Byte → Memory
  | [], a, v => [(a, v)]
  | (b, w) :: rest, a, v =>
    if a < b then (a, v) :: (b, w) :: rest
    else if a = b then (a, v) :: rest
    else (b, w) :: Memory.put rest a v

/-- List nothing at `a`. -/
def Memory.remove (m : Memory) (a : Nat) : Memory := m.filter fun c => decide (c.1 ≠ a)

/-- `MemWrite(FB, a, 1, v)` (R11), in canonical form: a blank byte is not listed. -/
def Memory.write (m : Memory) (a : Nat) (v : Byte) : Memory :=
  if v = Memory.blank then m.remove a else m.put a v

/-- The canonical form: strictly rising addresses, none outside the framebuffer, no blank entry. -/
def Memory.wf (m : Memory) : Bool :=
  decide (List.Pairwise (fun c d : Host.Cell => c.1 < d.1) m) &&
    m.all fun c => decide (c.1 < Config.fbBytes) && decide (c.2 ≠ Memory.blank)

/-! ### Trace, time, conditions -/

/-- Append one event (R14). -/
def emit (e : Event) (s : State) : State := { s with trace := s.trace ++ [e] }

/-- `Delay(t)`: "lets time t pass and has no other effect" (R12; log 11). -/
def delay (_ : Nat) (s : State) : State := s

/-- `note(En)`: "it changes no state" (R13; log 18). -/
def note (_ : Condition) (s : State) : State := s

/-! ### Pin primitives (R12) -/

/-- The pin of a wire: `CLK` is IP7, `DAT` is IP8 (10_state.md R30). -/
def Wire.pin : Wire → InPin
  | .clk => 7
  | .dat => 8

/-- The mode button `BTN` is IP9 (10_state.md R30). -/
def buttonPin : InPin := 9

/-- IP7 and IP8 are the pins that `owner` is about (10_state.md R34). -/
def isWirePin (p : InPin) : Bool := decide (p = 7) || decide (p = 8)

/-- `PinMode(p, m)`: `pin_mode[p] <- m` (R12). -/
def setPinMode (p : InPin) (m : PinMode) (s : State) : State :=
  { s with pinMode := s.pinMode.set p.val m p.isLt }

/-- `PinWrite(w, v)`: `pin_out[w] <- v` (R12). -/
def pinWrite : Wire → Bool → State → State
  | .clk, v, s => { s with latchClk := v }
  | .dat, v, s => { s with latchDat := v }

/-- The level the environment answers to the next pin read: the next listed answer, else a free value (20_memory.md R58,
U9; log 8). -/
def nextLevel (p : InPin) (s : State) : Bool := s.pinAnswers.headD (Config.pinLevel s.pinReads p)

/-- `PinRead(p)`: one level chosen by the environment, recorded as `RD(p, v)` (R12). -/
def pinRead (p : InPin) (s : State) : Bool × State :=
  (nextLevel p s,
    emit (.rd p (nextLevel p s)) { s with pinAnswers := s.pinAnswers.tail, pinReads := s.pinReads + 1 })

/-! ### The non-volatile store (20_memory.md R56) -/

/-- `MemRead(NV, NV_ADDR, 1)`, recorded as `NVR` (R11). -/
def nvRead (P : Params) (s : State) : Byte × State := (s.nv, emit (.nvr P.nvAddr s.nv) s)

/-- `nvUpdate(NV_ADDR, v)`: compare, then write if different, recorded as `NVW` (45_config_fsm.md R173, R11). -/
def nvUpdate (P : Params) (v : Byte) (s : State) : State :=
  let r := nvRead P s
  if r.1 = v then r.2 else emit (.nvw P.nvAddr v) { r.2 with nv := v }

/-! ### A new session -/

/-- A reset after the first: every item as at reset, and the stored byte keeps its value (10_state.md R32, R39,
70_reset_and_hazards.md R220). The environment's answers go on where they were (log 19). -/
def State.restart (s : State) : State :=
  { State.resetWith s.nv with pinAnswers := s.pinAnswers, pinReads := s.pinReads }

end Sys2Proof.Machine
end

