-- ==== Sys2Proof/Machine/Operands.lean ====
section
/-! DEFINITION. Sys2Proof/Machine/Operands.lean: from operand fields to the values the operations work on (30_encoding.md
R74, R84, R86), and the integer ranges of the loops. -/

namespace Sys2Proof

/-- The ordinal code of a family (30_encoding.md R84). -/
def Family.code : Family → Byte
  | .andNand => 0
  | .orNor => 1
  | .xorXnor => 2
  | .majMin => 3
  | .dualNot => 4

/-- The family a stored byte names: 0 to 4; every other byte is "treated as absent" (R32, R84). -/
def Family.ofByte (v : Byte) : Option Family :=
  match v.toNat with
  | 0 => some .andNand
  | 1 => some .orNor
  | 2 => some .xorXnor
  | 3 => some .majMin
  | 4 => some .dualNot
  | _ => none

/-- `(family + 1) mod 5` (45_config_fsm.md R172), the cycling order of R84. -/
def Family.next : Family → Family
  | .andNand => .orNor
  | .orNor => .xorXnor
  | .xorXnor => .majMin
  | .majMin => .dualNot
  | .dualNot => .andNand

/-- The value of a scale, 1 to 255 (43_text_renderer.md R151). -/
def Scale.value (k : Scale) : Nat := k.pred.val + 1

namespace Machine

/-- `sext_16`: the signed value of a coordinate operand (R74). -/
def coordValue (c : Coord) : Int := c.toInt

/-- The pin group a mask selects, ascending (R74). -/
def pinsOfMask (m : BitVec 10) : List InPin := (List.finRange 10).filter fun p => m.getLsbD p.val

/-- The rows of 10_state.md R30. -/
def row1 : List InPin := [0, 1, 2]
@[inherit_doc row1] def row2 : List InPin := [3, 4]
@[inherit_doc row1] def row3 : List InPin := [5, 6]
@[inherit_doc row1] def row4 : List InPin := [7, 8, 9]

/-- The bits of a byte, most significant first, the order on the wires (20_memory.md R53 (a)). -/
def bitsMsbFirst (b : Byte) : List Bool := (List.range 8).map fun i : Nat => b.getLsbD (7 - i)

/-- `(addr << 1) | 0`, the address byte of a write (R86). -/
def addressByte (a : DeviceAddr) : Byte := a.setWidth 8 <<< 1

/-- The integers from `lo` to `hi`, both included, ascending (R134, R135). -/
def intRange (lo hi : Int) : List Int := (List.range (hi - lo + 1).toNat).map fun i : Nat => lo + (i : Int)

end Machine

end Sys2Proof
end

