-- ==== Sys2Proof/Machine/Flags.lean ====
section
/-! DEFINITION. Sys2Proof/Machine/Flags.lean: the one-bit computations. The block has no condition codes (10_state.md R35);
these are the bit functions of 00_scope.md R15 and the gate formulas of 44_gate_engine.md R161 to R166. -/

namespace Sys2Proof.Machine

/-- At least two of three bits are 1 (R15). -/
def maj3 (a b c : Bool) : Bool := (a && b) || (a && c) || (b && c)

/-- The number of 1 bits (R15). -/
def count (l : List Bool) : Nat := (l.filter id).length

/-- `count mod 2` (R15). -/
def parity (l : List Bool) : Bool := decide (count l % 2 = 1)

/-- `ceil((n+1)/2)`: T(3) = 2, T(4) = 3 (R165, R168). -/
def threshold (n : Nat) : Nat := (n + 2) / 2

/-- `(y, not y)`: the complementary output of four of the families (R161). -/
def withComplement (y : Bool) : Bool × Bool := (y, !y)

/-- `gate(f, n, r)` with `r = [r1, ..., rn]`: the pair `(Y, Yb)` (R161). DUAL_NOT is two inverters of rows 2 and 3, its
own rule (R166). -/
def gate (f : Family) (r : List Bool) : Bool × Bool :=
  match f with
  | .andNand => withComplement (decide (count r = r.length))
  | .orNor => withComplement (decide (count r ≥ 1))
  | .xorXnor => withComplement (parity r)
  | .majMin => withComplement (decide (count r ≥ threshold r.length))
  | .dualNot => (!(r.getD 1 false), !(r.getD 2 false))

end Sys2Proof.Machine
end

