-- ==== Sys2Proof/Machine/Sampler.lean ====
section
/-! DEFINITION. Sys2Proof/Machine/Sampler.lean: RDS and ROR (40_sampler.md). -/

namespace Sys2Proof.Machine

/-- The Sampler may not read these pins: `owner = DRIVER` and one of them is IP7 or IP8 (10_state.md R34, R101, R102). -/
def ownedByDriver (ps : List InPin) (s : State) : Bool := decide (s.owner = .driver) && ps.any isWirePin

/-- `readStable(p)` past its ownership check: three reads, majority (R101). -/
def readStable (P : Params) (p : InPin) (s : State) : Bool × State :=
  let r0 := pinRead p s
  let r1 := pinRead p (delay P.tSample r0.2)
  let r2 := pinRead p (delay P.tSample r1.2)
  (maj3 r0.1 r1.1 r2.1, r2.2)

/-- The loop of `rowOR` with the value `r` so far: after a stable-true pin it returns at once under `SHORT_CIRCUIT`, and
reads on otherwise (R102). -/
def rowOrFrom (P : Params) : List InPin → Bool → State → Bool × State
  | [], r, s => (r, s)
  | p :: ps, r, s =>
    let a := readStable P p s
    if a.1 then
      if P.shortCircuit then (true, a.2) else rowOrFrom P ps true a.2
    else rowOrFrom P ps r a.2

/-- `rowOR(group)` past its ownership check (R102). -/
def rowOr (P : Params) (group : List InPin) (s : State) : Bool × State := rowOrFrom P group false s

/-- RDS p (R101). -/
def execRds (p : InPin) (s : State) : Result :=
  if ownedByDriver [p] s then .refused .pinOwnedByDriver
  else
    let r := readStable Config.params p s
    .next { r.2 with res := r.1 }

/-- ROR m (R102): the whole group is checked before any read. -/
def execRor (m : BitVec 10) (s : State) : Result :=
  if ownedByDriver (pinsOfMask m) s then .refused .pinOwnedByDriver
  else
    let r := rowOr Config.params (pinsOfMask m) s
    .next { r.2 with res := r.1 }

end Sys2Proof.Machine
end

