-- ==== Sys2Proof/Machine/BitProtocol.lean ====
section
/-! DEFINITION. Sys2Proof/Machine/BitProtocol.lean: BSTART, BSTOP, BWRITE, BPROBE and the transaction the Display
Controller uses (41_bit_protocol.md). The functions below are the operations past their refusal checks (log 13). -/

namespace Sys2Proof.Machine

/-! ### Line primitives (R110) -/

/-- "drive high": let the pull-up lift the wire (R110). -/
def release (w : Wire) (s : State) : State := emit (.rel w.pin) (setPinMode w.pin .pullUp s)

/-- "drive low", one step (R110; log 16). -/
def assertLow (w : Wire) (s : State) : State :=
  emit (.low w.pin) (setPinMode w.pin .output (pinWrite w false s))

/-- Back to plain input mode (R110). -/
def toInput (w : Wire) (s : State) : State := emit (.inp w.pin) (setPinMode w.pin .plain s)

/-! ### Start, stop, one byte (R111 to R113) -/

/-- The start sequence (R111). -/
def busStart (P : Params) (s : State) : State :=
  let s1 := delay P.tBit (release .clk (release .dat s))
  let s2 := delay P.tBit (assertLow .dat s1)
  delay P.tBit (assertLow .clk s2)

/-- The stop sequence (R112). -/
def busStop (P : Params) (s : State) : State :=
  let s1 := delay P.tBit (assertLow .dat s)
  let s2 := delay P.tBit (release .clk s1)
  delay P.tBit (release .dat s2)

/-- One clock pulse: high, then low (R113). -/
def clockPulse (P : Params) (s : State) : State :=
  delay P.tBit (assertLow .clk (delay P.tBit (release .clk s)))

/-- Put one bit on the data wire and clock it (R113). -/
def shiftBit (P : Params) (b : Bool) (s : State) : State :=
  clockPulse P (delay P.tBit (if b then release .dat s else assertLow .dat s))

/-- The data bits of a byte, in the order given (R113). -/
def shiftBits (P : Params) : List Bool → State → State
  | [], s => s
  | b :: bs, s => shiftBits P bs (shiftBit P b s)

/-- The ninth clock: release the data wire and sample it while the clock is high; a low sample is an acknowledge
(R113). -/
def ackClock (P : Params) (s : State) : Bool × State :=
  let s1 := delay P.tBit (release .clk (delay P.tBit (release .dat s)))
  let r := pinRead Wire.dat.pin s1
  (!r.1, delay P.tBit (assertLow .clk r.2))

/-- `writeByte(b)`: 8 bits most significant first, then the acknowledge clock (R113). -/
def writeByte (P : Params) (b : Byte) (s : State) : Bool × State :=
  ackClock P (shiftBits P (bitsMsbFirst b) s)

/-! ### Transactions (R115) -/

/-- Write bytes in order; every acknowledge is discarded (R115, 60_exceptions.md R203). -/
def sendBytes (P : Params) : List Byte → State → State
  | [], s => s
  | b :: bs, s => sendBytes P bs (writeByte P b s).2

/-- `Txn(a, bytes)` (R115). -/
def txn (P : Params) (a : DeviceAddr) (bytes : List Byte) (s : State) : State :=
  busStop P (sendBytes P (addressByte a :: bytes) (busStart P s))

/-! ### The probe (R114) -/

/-- One probe attempt: start, address byte, stop; the acknowledge is the answer (R114). -/
def probeOne (P : Params) (a : DeviceAddr) (s : State) : Bool × State :=
  let r := writeByte P (addressByte a) (busStart P s)
  (r.1, busStop P r.2)

/-- A candidate acknowledged: its address is latched and the wires stay with the driver (R114). -/
def probeFound (a : DeviceAddr) (s : State) : State :=
  { s with dispAddr := a, displayPresent := true, probed := true, res := true }

/-- No candidate acknowledged: both wires back to plain input, the pins go to the Sampler, E1 (R114, R201). -/
def probeFailed (s : State) : State :=
  let s1 := toInput .dat (toInput .clk s)
  note .e1 { s1 with owner := .sampler, displayPresent := false, probed := true, res := false }

/-- The probe over the candidates, in order: the first that acknowledges wins (R114). -/
def probeFrom (P : Params) : List DeviceAddr → State → State
  | [], s => probeFailed s
  | a :: as, s =>
    let r := probeOne P a s
    if r.1 then probeFound a r.2 else probeFrom P as r.2

/-- `BPROBE` past its checks (R114). -/
def probe (P : Params) (s : State) : State := probeFrom P [P.addrA, P.addrB] s

/-! ### The operations -/

/-- BSTART (R111). -/
def execBstart (s : State) : Result :=
  if s.owner = .sampler then .refused .wiresOwnedBySampler else .next (busStart Config.params s)

/-- BSTOP (R112). -/
def execBstop (s : State) : Result :=
  if s.owner = .sampler then .refused .wiresOwnedBySampler else .next (busStop Config.params s)

/-- BWRITE b (R113): `res` is the acknowledge. -/
def execBwrite (b : Byte) (s : State) : Result :=
  if s.owner = .sampler then .refused .wiresOwnedBySampler
  else
    let r := writeByte Config.params b s
    .next { r.2 with res := r.1 }

/-- BPROBE (R114): once per session; its BSTART needs the wires (R111). -/
def execBprobe (s : State) : Result :=
  if s.probed then .refused .probeRunsOnce
  else if s.owner = .sampler then .refused .wiresOwnedBySampler
  else .next (probe Config.params s)

end Sys2Proof.Machine
end

