-- ==== Sys2Proof/Machine/Display.lean ====
section
/-! DEFINITION. Sys2Proof/Machine/Display.lean: DINIT, DCLEAR, DSETPIX, DHLINE, DVLINE, DFLUSH (42_display_controller.md). A
drawing operation is the list of the pixels for which its pseudocode calls `setPixel`, in that order. -/

namespace Sys2Proof.Machine

/-- `0 <= x <= 127` and `0 <= y <= 63` (R133). -/
def onScreen (x y : Int) : Bool := decide (0 ≤ x ∧ x ≤ 127 ∧ 0 ≤ y ∧ y ≤ 63)

/-- The byte of a pixel on the screen: `(y div 8) * 128 + x` (20_memory.md R51). -/
def pixelByte (x y : Int) : Nat := y.toNat / 8 * 128 + x.toNat

/-- The mask of a pixel on the screen: `1 << (y mod 8)` (R51, R133). -/
def pixelMask (y : Int) : Byte := (1 : Byte) <<< (y.toNat % 8)

/-- `setPixel(x, y, on)`: out of range is a silent no-op, else one bit of one byte (R133). -/
def setPixel (x y : Int) (on : Bool) (m : Memory) : Memory :=
  if onScreen x y then
    let old := m.read (pixelByte x y)
    m.write (pixelByte x y)
      (if on then old ||| pixelMask y else old &&& (0xFF ^^^ pixelMask y))
  else m

/-- The pixel (x, y) as the framebuffer holds it (R51); off the screen there is none. -/
def pixelAt (m : Memory) (x y : Int) : Bool :=
  onScreen x y && (m.read (pixelByte x y)).getLsbD (y.toNat % 8)

/-- `setPixel` for each pixel of a list, in order. -/
def paint (ps : List (Int × Int)) (on : Bool) (m : Memory) : Memory :=
  ps.foldl (fun m p => setPixel p.1 p.2 on m) m

/-- A drawing operation: refused if it would read a byte that nothing has written since reset, that is, if it touches a
pixel on the screen before the first DCLEAR (R29, R223; logs 5 and 14). -/
def draw (ps : List (Int × Int)) (on : Bool) (s : State) : Result :=
  if !s.fbCleared && ps.any fun p => onScreen p.1 p.2 then .refused .framebufferUnwritten
  else .next { s with fb := paint ps on s.fb }

/-- The pixels of DHLINE: `(x, y)` for x from the smaller endpoint to the larger (R134). -/
def hlinePixels (x0 x1 y : Int) : List (Int × Int) :=
  (intRange (min x0 x1) (max x0 x1)).map fun x => (x, y)

/-- The pixels of DVLINE (R135). -/
def vlinePixels (x y0 y1 : Int) : List (Int × Int) :=
  (intRange (min y0 y1) (max y0 y1)).map fun y => (x, y)

/-- Every byte of `fb` to 0x00 (R132): then nothing is listed. -/
def clearFrame (s : State) : State := { s with fb := [], fbCleared := true }

/-- The 1024 bytes of the framebuffer in ascending address order (R137). -/
def frameBytes (m : Memory) : List Byte := (List.range Config.fbBytes).map m.read

/-- DINIT past its checks: one command frame (R131, R88). -/
def initDisplay (P : Params) (s : State) : State := txn P s.dispAddr (P.cmdPrefix ++ P.initSeq) s

/-- DFLUSH past its checks: one command frame, one data frame (R137, R88). -/
def flushFrame (P : Params) (s : State) : State :=
  let s1 := txn P s.dispAddr (P.cmdPrefix ++ P.winSeq) s
  txn P s1.dispAddr (P.dataPrefix ++ frameBytes s1.fb) s1

/-- DINIT (R131). -/
def execDinit (s : State) : Result :=
  if !s.displayPresent then .refused .noDisplay
  else if s.owner = .sampler then .refused .wiresOwnedBySampler
  else .next (initDisplay Config.params s)

/-- DCLEAR (R132). -/
def execDclear (s : State) : Result := .next (clearFrame s)

/-- DSETPIX x, y, on (R133). -/
def execDsetpix (x y : Coord) (on : Bool) (s : State) : Result :=
  draw [(coordValue x, coordValue y)] on s

/-- DHLINE x0, x1, y (R134). -/
def execDhline (x0 x1 y : Coord) (s : State) : Result :=
  draw (hlinePixels (coordValue x0) (coordValue x1) (coordValue y)) true s

/-- DVLINE x, y0, y1 (R135). -/
def execDvline (x y0 y1 : Coord) (s : State) : Result :=
  draw (vlinePixels (coordValue x) (coordValue y0) (coordValue y1)) true s

/-- DFLUSH (R137): it reads every byte of `fb`, so a DCLEAR must have come first (R223). -/
def execDflush (s : State) : Result :=
  if !s.displayPresent then .refused .noDisplay
  else if s.owner = .sampler then .refused .wiresOwnedBySampler
  else if !s.fbCleared then .refused .framebufferUnwritten
  else .next (flushFrame Config.params s)

end Sys2Proof.Machine
end

