-- ==== Sys2Proof/Machine/Text.lean ====
section
/-! DEFINITION. Sys2Proof/Machine/Text.lean: DCHAR and DTEXT (43_text_renderer.md). -/

namespace Sys2Proof.Machine

/-- `lookup(c)`: linear, the first entry whose code is `c` (R152, 30_encoding.md R89). -/
def lookup : List FontEntry → Byte → Option (Vector Byte 5)
  | [], _ => none
  | e :: es, c => if e.code = c then some e.columns else lookup es c

/-- The k by k block of one lit glyph pixel, top left at (x, y) (R152). -/
def block (x y : Int) (k : Nat) : List (Int × Int) :=
  (List.range k).flatMap fun dx : Nat => (List.range k).map fun dy : Nat => (x + (dx : Int), y + (dy : Int))

/-- The pixels of a glyph: for each lit bit `row` (0 to 6) of column `col` (0 to 4), its block; bit 7 is never drawn
(R152). -/
def glyphPixels (g : Vector Byte 5) (x y : Int) (k : Nat) : List (Int × Int) :=
  (List.finRange 5).flatMap fun col =>
    (List.range 7).flatMap fun row : Nat =>
      if g[col].getLsbD row then block (x + (col.val * k : Nat)) (y + (row * k : Nat)) k else []

/-- The pixels of `drawGlyph(x, y, k, c)`; none for an unmapped character, E4 (R152, R204). -/
def charPixels (P : Params) (x y : Int) (k : Nat) (c : Byte) : List (Int × Int) :=
  match lookup P.font c with
  | none => []
  | some g => glyphPixels g x y k

/-- The pixels of a string drawn from the cursor `cx`: every character, mapped or not, moves the cursor by
`GLYPH_ADVANCE * k` (R153). -/
def textPixels (P : Params) (cx y : Int) (k : Nat) : List Byte → List (Int × Int)
  | [] => []
  | c :: cs => charPixels P cx y k c ++ textPixels P (cx + (P.glyphAdvance * k : Nat)) y k cs

/-- DCHAR x, y, k, c (R152). -/
def execDchar (x y : Coord) (k c : Byte) (s : State) : Result :=
  if k.toNat = 0 then .refused .scaleZero
  else draw (charPixels Config.params (coordValue x) (coordValue y) k.toNat c) true s

/-- DTEXT x, y, k, s (R153). -/
def execDtext (x y : Coord) (k : Byte) (str : List Byte) (s : State) : Result :=
  if k.toNat = 0 then .refused .scaleZero
  else draw (textPixels Config.params (coordValue x) (coordValue y) k.toNat str) true s

end Sys2Proof.Machine
end

