-- ==== Sys2Proof/Machine/GateEngine.lean ====
section
/-! DEFINITION. Sys2Proof/Machine/GateEngine.lean: GEVAL (44_gate_engine.md). -/

namespace Sys2Proof.Machine

/-- The rows in scope: three with a display, four without (R160, R161). -/
def rowsInScope (s : State) : List Bool :=
  if s.displayPresent then [s.in1, s.in2, s.in3] else [s.in1, s.in2, s.in3, s.in4]

/-- Drive the output pair: three pins each, OP0 first, one step (R161, 10_state.md R31; log 16). -/
def driveOutputs (y yb : Bool) (s : State) : State :=
  { s with
    y := y
    yb := yb
    outPin := #v[y, y, y, yb, yb, yb]
    trace := s.trace ++ [.out 0 y, .out 1 y, .out 2 y, .out 3 yb, .out 4 yb, .out 5 yb] }

/-- GEVAL past its checks (R161). -/
def evalGate (s : State) : State :=
  let r := gate s.family (rowsInScope s)
  driveOutputs r.1 r.2 s

/-- GEVAL (R161): the mode must be decided (U8). `family` and `in[1..n]` always hold a value, before CLOAD and CYCLE
their reset values (logs 4 and 5). -/
def execGeval (s : State) : Result :=
  if !s.probed then .refused .topologyUndecided
  else .next (evalGate s)

end Sys2Proof.Machine
end

