-- ==== Sys2Proof/Machine/ConfigFsm.lean ====
section
/-! DEFINITION. Sys2Proof/Machine/ConfigFsm.lean: CLOAD, CSTEP, NVUPD (45_config_fsm.md). -/

namespace Sys2Proof.Machine

/-- CLOAD (R171): the stored family, or the factory default with E2 (R202); the store is not written. -/
def loadFamily (P : Params) (s : State) : State :=
  let r := nvRead P s
  match Family.ofByte r.1 with
  | some f => { r.2 with family := f, familySet := true }
  | none => note .e2 { r.2 with family := P.factoryDefault, familySet := true }

/-- A confirmed rising edge: the previous debounced value was 0 and this one is 1 (R172). -/
def risingEdge (b : Bool) (s : State) : Bool := !s.prevBtn && b

/-- CSTEP b past its checks: on an edge advance the family and persist it in the same operation (R172). -/
def buttonStep (P : Params) (b : Bool) (s : State) : State :=
  let s1 := { s with prevBtn := b }
  if risingEdge b s then nvUpdate P s.family.next.code { s1 with family := s.family.next } else s1

/-- CLOAD (R171). -/
def execCload (s : State) : Result := .next (loadFamily Config.params s)

/-- CSTEP b (R172): only with a display (U7). An edge reads `family`, before CLOAD its reset value (logs 4, 5 and 15). -/
def execCstep (b : Bool) (s : State) : Result :=
  if !s.displayPresent then .refused .noButton
  else .next (buttonStep Config.params b s)

/-- NVUPD v (R173). -/
def execNvupd (v : Byte) (s : State) : Result := .next (nvUpdate Config.params v s)

end Sys2Proof.Machine
end

