-- ==== Sys2Proof/Machine/Sequencer.lean ====
section
/-! DEFINITION. Sys2Proof/Machine/Sequencer.lean: BOOT and CYCLE (46_sequencer_and_clients.md). -/

namespace Sys2Proof.Machine

/-! ### BOOT (R180) -/

/-- `PinMode(p, IN)` for IP0 to IP9; no trace event (R180). -/
def allPinsPlain (s : State) : State := (List.finRange 10).foldl (fun s p => setPinMode p .plain s) s

/-- BOOT past its checks: pin modes, CLOAD, warm-up, BPROBE, and DINIT if a display was found (R180). -/
def bootSession (P : Params) (s : State) : State :=
  let s1 := probe P (delay P.tWarmup (loadFamily P (allPinsPlain s)))
  if s1.displayPresent then initDisplay P s1 else s1

/-- BOOT (R180): once per session; its BPROBE needs the wires (R111, R114). -/
def execBoot (s : State) : Result :=
  if s.probed then .refused .bootRunsOnce
  else if s.owner = .sampler then .refused .wiresOwnedBySampler
  else .next (bootSession Config.params s)

/-! ### CYCLE (R182) -/

/-- `in[1]`, `in[2]`, `in[3]`, in this order (R182). -/
def sampleRows (P : Params) (s : State) : State :=
  let a := rowOr P row1 s
  let s1 := { a.2 with in1 := a.1 }
  let b := rowOr P row2 s1
  let s2 := { b.2 with in2 := b.1 }
  let c := rowOr P row3 s2
  { c.2 with in3 := c.1 }

/-- Without a display: `in[4]` is row 4 (R182). -/
def sampleRow4 (P : Params) (s : State) : State :=
  let a := rowOr P row4 s
  { a.2 with in4 := a.1, rowsSet := true }

/-- With a display: `in[4]` is 0, the button is sampled and CSTEP runs (R182, 10_state.md R27). -/
def sampleButton (P : Params) (s : State) : State :=
  let r := readStable P buttonPin { s with in4 := false, rowsSet := true }
  buttonStep P r.1 r.2

/-- The pixels a drawing operation of the diagram sets or clears, and which (R184). -/
def drawOpPixels (P : Params) : DrawOp → List (Int × Int) × Bool
  | .setPix x y on => ([(coordValue x, coordValue y)], on)
  | .hline x0 x1 y => (hlinePixels (coordValue x0) (coordValue x1) (coordValue y), true)
  | .vline x y0 y1 => (vlinePixels (coordValue x) (coordValue y0) (coordValue y1), true)
  | .char x y k c => (charPixels P (coordValue x) (coordValue y) k.value c, true)
  | .text x y k str => (textPixels P (coordValue x) (coordValue y) k.value str.chars, true)

/-- "perform op" on the framebuffer (R182). -/
def paintOp (P : Params) (m : Memory) (op : DrawOp) : Memory :=
  paint (drawOpPixels P op).1 (drawOpPixels P op).2 m

/-- The diagram of this cycle (R182, R184). -/
def diagramOf (P : Params) (s : State) : List DrawOp := P.diagram s.family s.in1 s.in2 s.in3 s.y s.yb

/-- DCLEAR, the diagram, DFLUSH (R182). -/
def showFrame (P : Params) (s : State) : State :=
  let s1 := clearFrame s
  flushFrame P { s1 with fb := (diagramOf P s).foldl (paintOp P) s1.fb }

/-- CYCLE past its checks (R182). -/
def runCycle (P : Params) (s : State) : State :=
  let s1 := sampleRows P s
  if s.displayPresent then showFrame P (evalGate (sampleButton P s1))
  else evalGate (sampleRow4 P s1)

/-- CYCLE (R182): after BOOT. Without a display it reads IP7 and IP8, which the Sampler must own (R102); with one it
drives the wires, which the driver must own (R111). Its GEVAL reads `family`, before CLOAD its reset value (logs 4 and
5). -/
def execCycle (s : State) : Result :=
  if !s.probed then .refused .bootHasNotRun
  else if !s.displayPresent && ownedByDriver row4 s then .refused .pinOwnedByDriver
  else if s.displayPresent && decide (s.owner = .sampler) then .refused .wiresOwnedBySampler
  else .next (runCycle Config.params s)

end Sys2Proof.Machine
end

