-- ==== Sys2Proof/Machine/Dispatch.lean ====
section
/-! DEFINITION. Sys2Proof/Machine/Dispatch.lean: each instruction to its meaning. -/

namespace Sys2Proof.Machine

def exec (i : Instr) (s : State) : Host.Outcome State Fault Refusal :=
  match i with
  | .boot => Sys2Proof.Machine.execBoot s
  | .cycle => Sys2Proof.Machine.execCycle s
  | .rds p => Sys2Proof.Machine.execRds p s
  | .ror m => Sys2Proof.Machine.execRor m s
  | .bstart => Sys2Proof.Machine.execBstart s
  | .bstop => Sys2Proof.Machine.execBstop s
  | .bwrite b => Sys2Proof.Machine.execBwrite b s
  | .bprobe => Sys2Proof.Machine.execBprobe s
  | .dinit => Sys2Proof.Machine.execDinit s
  | .dclear => Sys2Proof.Machine.execDclear s
  | .dsetpix x y on => Sys2Proof.Machine.execDsetpix x y on s
  | .dhline x0 x1 y => Sys2Proof.Machine.execDhline x0 x1 y s
  | .dvline x y0 y1 => Sys2Proof.Machine.execDvline x y0 y1 s
  | .dflush => Sys2Proof.Machine.execDflush s
  | .dchar x y k c => Sys2Proof.Machine.execDchar x y k c s
  | .dtext x y k str => Sys2Proof.Machine.execDtext x y k str s
  | .geval => Sys2Proof.Machine.execGeval s
  | .cload => Sys2Proof.Machine.execCload s
  | .cstep b => Sys2Proof.Machine.execCstep b s
  | .nvupd v => Sys2Proof.Machine.execNvupd v s

end Sys2Proof.Machine
end

