-- ==== Sys2Proof/WellFormed.lean ====
section
/-! DEFINITION. Sys2Proof/WellFormed.lean: which instructions have a command word. Every operand range of 30_encoding.md R74
but one is carried by the operand's type (pin index 0 to 9, 10-bit mask, bytes, 16-bit coordinates, bits); the character
count `n` of DTEXT is 8 bits wide, so its string has at most 255 characters. -/

namespace Sys2Proof

/-- The operands lie in the ranges of R74 (for DTEXT: `n` is 0 to 255). -/
def Instr.wellFormed : Instr → Bool
  | .boot => true
  | .cycle => true
  | .rds _ => true
  | .ror _ => true
  | .bstart => true
  | .bstop => true
  | .bwrite _ => true
  | .bprobe => true
  | .dinit => true
  | .dclear => true
  | .dsetpix _ _ _ => true
  | .dhline _ _ _ => true
  | .dvline _ _ _ => true
  | .dflush => true
  | .dchar _ _ _ _ => true
  | .dtext _ _ _ str => decide (str.length ≤ 255)
  | .geval => true
  | .cload => true
  | .cstep _ => true
  | .nvupd _ => true

end Sys2Proof
end

