-- ==== Sys2Proof/Decode.lean ====
section
/-! DEFINITION. Sys2Proof/Decode.lean: command words to instructions and back (30_encoding.md R70 to R76). A command word
is sent most significant bit first, so its first byte is the operation code and a 16-bit field sends its high byte first
(R72, 20_memory.md R53 (e)). The decoder takes the bytes of a command stream and answers the first command and what is
left of the stream; it is total and rejects by name. -/

namespace Sys2Proof

/-- What a format's operand decoder answers: the operand and the rest of the stream, or why there is none. -/
abbrev Decoded (α : Type) := Except DecodeError (α × List Byte)

/-- A 16-bit field: its high byte is sent first (R72). -/
def coordOfBytes (hi lo : Byte) : Coord := BitVec.ofNat 16 (hi.toNat * 256 + lo.toNat)

/-- The two bytes of a 16-bit field, in sending order (R72). -/
def bytesOfCoord (c : Coord) : List Byte := [BitVec.ofNat 8 (c.toNat / 256), BitVec.ofNat 8 c.toNat]

/-- Format P, `0000pppp`: pin index 0 to 9; 10 to 15 are reserved (R73, R74, R75). -/
def decodePin : List Byte → Decoded InPin
  | [] => .error .truncated
  | b :: rest =>
    if h : b.toNat < 10 then .ok (⟨b.toNat, h⟩, rest)
    else if b.toNat < 16 then .error .reservedPin
    else .error .nonzeroPadding

/-- Format M, `000000mm mmmmmmmm` (R73). -/
def decodeMask : List Byte → Decoded (BitVec 10)
  | hi :: lo :: rest =>
    if hi.toNat < 4 then .ok (BitVec.ofNat 10 (hi.toNat * 256 + lo.toNat), rest) else .error .nonzeroPadding
  | [_] => .error .truncated
  | [] => .error .truncated

/-- Format B, `bbbbbbbb` (R73). -/
def decodeByte : List Byte → Decoded Byte
  | b :: rest => .ok (b, rest)
  | [] => .error .truncated

/-- Format V, and the last byte of format XY, `0000000v` (R73). -/
def decodeBit : List Byte → Decoded Bool
  | b :: rest => if b.toNat < 2 then .ok (b.getLsbD 0, rest) else .error .nonzeroPadding
  | [] => .error .truncated

/-- Two 16-bit fields, as formats XY, C and T begin (R73). -/
def decodeTwoCoords : List Byte → Decoded (Coord × Coord)
  | a1 :: a0 :: b1 :: b0 :: rest => .ok ((coordOfBytes a1 a0, coordOfBytes b1 b0), rest)
  | _ => .error .truncated

/-- Format XY: `x`, `y` and the bit `on` (R73). -/
def decodeXY (bytes : List Byte) : Decoded (Coord × Coord × Bool) :=
  match decodeTwoCoords bytes with
  | .error e => .error e
  | .ok ((x, y), rest) =>
    match decodeBit rest with
    | .error e => .error e
    | .ok (v, rest') => .ok ((x, y, v), rest')

/-- Format L: three 16-bit fields (R73). -/
def decodeLine : List Byte → Decoded (Coord × Coord × Coord)
  | a1 :: a0 :: e1 :: e0 :: f1 :: f0 :: rest =>
    .ok ((coordOfBytes a1 a0, coordOfBytes e1 e0, coordOfBytes f1 f0), rest)
  | _ => .error .truncated

/-- Formats C and T up to their 56th bit: `x`, `y`, `k` and one more byte, `c` or `n` (R73). -/
def decodeHead : List Byte → Decoded (Coord × Coord × Byte × Byte)
  | x1 :: x0 :: y1 :: y0 :: k :: c :: rest =>
    .ok ((coordOfBytes x1 x0, coordOfBytes y1 y0, k, c), rest)
  | _ => .error .truncated

/-- Format T: the head, then exactly `n` character bytes (R73, R76). -/
def decodeText (bytes : List Byte) : Decoded (Coord × Coord × Byte × List Byte) :=
  match decodeHead bytes with
  | .error e => .error e
  | .ok ((x, y, k, n), rest) =>
    if n.toNat ≤ rest.length then .ok ((x, y, k, rest.take n.toNat), rest.drop n.toNat)
    else .error .truncated

/-- Put a constructor over an operand decoder's answer. -/
def Decoded.into {α : Type} (f : α → Instr) : Decoded α → Decoded Instr
  | .ok (a, rest) => .ok (f a, rest)
  | .error e => .error e

/-- The first command of a stream of bytes and the rest of the stream (R71 to R76). Every operation code that R71 does
not list is reserved (R75). -/
def decode : List Byte → Decoded Instr
  | [] => .error .truncated
  | op :: rest =>
    match op.toNat with
    | 0x01 => .ok (.boot, rest)
    | 0x02 => .ok (.cycle, rest)
    | 0x10 => (decodePin rest).into fun p => .rds p
    | 0x11 => (decodeMask rest).into fun m => .ror m
    | 0x20 => .ok (.bstart, rest)
    | 0x21 => .ok (.bstop, rest)
    | 0x22 => (decodeByte rest).into fun b => .bwrite b
    | 0x23 => .ok (.bprobe, rest)
    | 0x30 => .ok (.dinit, rest)
    | 0x31 => .ok (.dclear, rest)
    | 0x32 => (decodeXY rest).into fun o => .dsetpix o.1 o.2.1 o.2.2
    | 0x33 => (decodeLine rest).into fun o => .dhline o.1 o.2.1 o.2.2
    | 0x34 => (decodeLine rest).into fun o => .dvline o.1 o.2.1 o.2.2
    | 0x35 => .ok (.dflush, rest)
    | 0x40 => (decodeHead rest).into fun o => .dchar o.1 o.2.1 o.2.2.1 o.2.2.2
    | 0x41 => (decodeText rest).into fun o => .dtext o.1 o.2.1 o.2.2.1 o.2.2.2
    | 0x50 => .ok (.geval, rest)
    | 0x60 => .ok (.cload, rest)
    | 0x61 => (decodeBit rest).into fun v => .cstep v
    | 0x62 => (decodeByte rest).into fun v => .nvupd v
    | _ => .error (.reservedCode op)

/-- The operation code of an instruction (the table of R71). -/
def Instr.opcode : Instr → Byte
  | .boot => 0x01
  | .cycle => 0x02
  | .rds _ => 0x10
  | .ror _ => 0x11
  | .bstart => 0x20
  | .bstop => 0x21
  | .bwrite _ => 0x22
  | .bprobe => 0x23
  | .dinit => 0x30
  | .dclear => 0x31
  | .dsetpix _ _ _ => 0x32
  | .dhline _ _ _ => 0x33
  | .dvline _ _ _ => 0x34
  | .dflush => 0x35
  | .dchar _ _ _ _ => 0x40
  | .dtext _ _ _ _ => 0x41
  | .geval => 0x50
  | .cload => 0x60
  | .cstep _ => 0x61
  | .nvupd _ => 0x62

/-- The operand bytes of an instruction, in sending order (the patterns of R73). -/
def Instr.operandBytes : Instr → List Byte
  | .boot => []
  | .cycle => []
  | .rds p => [BitVec.ofNat 8 p.val]
  | .ror m => [BitVec.ofNat 8 (m.toNat / 256), BitVec.ofNat 8 m.toNat]
  | .bstart => []
  | .bstop => []
  | .bwrite b => [b]
  | .bprobe => []
  | .dinit => []
  | .dclear => []
  | .dsetpix x y on => bytesOfCoord x ++ bytesOfCoord y ++ [if on then 1 else 0]
  | .dhline x0 x1 y => bytesOfCoord x0 ++ bytesOfCoord x1 ++ bytesOfCoord y
  | .dvline x y0 y1 => bytesOfCoord x ++ bytesOfCoord y0 ++ bytesOfCoord y1
  | .dflush => []
  | .dchar x y k c => bytesOfCoord x ++ bytesOfCoord y ++ [k, c]
  | .dtext x y k str => bytesOfCoord x ++ bytesOfCoord y ++ [k, BitVec.ofNat 8 str.length] ++ str
  | .geval => []
  | .cload => []
  | .cstep b => [if b then 1 else 0]
  | .nvupd v => [v]

/-- The command word of a well-formed instruction, first byte sent first (R72, R73). -/
def encode (i : Instr) : List Byte := i.opcode :: i.operandBytes

/-- The `n` bytes of a number, most significant byte first: the table numbers a command's bits with bit 0 the last one
sent (R72, R73; log 2). -/
def bytesOfNat : Nat → Nat → List Byte
  | 0, _ => []
  | n + 1, w => BitVec.ofNat 8 (w / 256 ^ n) :: bytesOfNat n w

/-- How many character bytes a command's head announces: `n` of format T, none for every other format (R76). -/
def announcedChars : List Byte → Nat
  | [op, _, _, _, _, _, n] => if op.toNat = 0x41 then n.toNat else 0
  | _ => 0

/-- The bytes of the instruction whose table bits are `w`: the head the table gives, then, for DTEXT, as many zero
character bytes as the head announces (R76; log 2). -/
def tableBytes (nbits w : Nat) : List Byte :=
  let head := bytesOfNat ((nbits + 7) / 8) w
  head ++ List.replicate (announcedChars head) 0

/-- The instruction the decoder reads from an instruction whose bits are `w`, numbered as spec/opcode_table.json numbers
them (log 2). -/
def decodeTableWord (nbits w : Nat) : Option Instr :=
  match decode (tableBytes nbits w) with
  | .ok (i, _) => some i
  | .error _ => none

end Sys2Proof
end

