-- ==== Sys2Proof/Machine/Fetch.lean ====
section
/-! DEFINITION. Sys2Proof/Machine/Fetch.lean: where the next operation comes from (30_encoding.md R70, 10_state.md R22,
70_reset_and_hazards.md R220; log 1). -/

namespace Sys2Proof.Machine

/-- What the built-in sequencer issues: BOOT until the session has been booted, then CYCLE for ever (R22, R220). -/
def sequencerInstr (s : State) : Instr := if s.probed then .cycle else .boot

/-- The next operation and the command bytes left after it: the first pending command word, or, with none pending, what
the sequencer issues (R70; log 1). -/
def fetch (s : State) : Decoded Instr :=
  match s.commands with
  | [] => .ok (sequencerInstr s, [])
  | b :: bs => decode (b :: bs)

end Sys2Proof.Machine
end

