-- ==== Sys2Proof/Machine/Step.lean ====
section
/-! DEFINITION. Sys2Proof/Machine/Step.lean: one step is one operation, run to completion (30_encoding.md R70). -/

namespace Sys2Proof.Machine

/-- Fetch the next operation and execute it; bytes that are no command word are refused (R75). -/
def step (s : State) : Host.Outcome State Fault Refusal :=
  match fetch s with
  | .ok (i, rest) => exec i { s with commands := rest }
  | .error e => .refused (.undecodable e)

/-- `s` with the instruction whose table bits are `w` as the only pending command, so that the next step runs it
(logs 1 and 2). -/
def State.withFetchWord (s : State) (nbits w : Nat) : State := { s with commands := tableBytes nbits w }

end Sys2Proof.Machine
end

