-- ==== Sys2Proof/Machine/Clients.lean ====
section
/-! DEFINITION. Sys2Proof/Machine/Clients.lean: the Status Renderer's mapping as a view of the state
(46_sequencer_and_clients.md R188). It is a client outside the block (00_scope.md R6), reads `in`, `Y`, `Yb`, `family` and
`display_present` and writes nothing of the block; colours and slot order are not in the source (log 20). -/

namespace Sys2Proof.Machine

/-- The colour roles R188 names. -/
inductive LedColour where
  /-- The one fixed colour of an active input row. -/
  | activeInput
  /-- The fixed colour keyed by the family. -/
  | ofFamily (f : Family)
  /-- The fixed hue of non-inverted outputs. -/
  | plainHue
  /-- The fixed hue of inverted outputs. -/
  | invertedHue
  deriving DecidableEq, Repr

/-- What one indicator shows. `unlit` is an inactive row or a false output, whose look the source does not give; `off` is
the row-4 indicator with a display, "always off". -/
inductive LedSlot where
  | lit (c : LedColour)
  | unlit
  | off
  deriving DecidableEq, Repr

/-- The seven slots by role (R188). -/
structure LedView where
  row1 : LedSlot
  row2 : LedSlot
  row3 : LedSlot
  row4 : LedSlot
  status : LedSlot
  outY : LedSlot
  outYb : LedSlot
  deriving DecidableEq, Repr

/-- An indicator that shows a colour while its bit is 1. -/
def ledFor (c : LedColour) (v : Bool) : LedSlot := if v then .lit c else .unlit

/-- The Status Renderer (R188). -/
def statusView (s : State) : LedView where
  row1 := ledFor .activeInput s.in1
  row2 := ledFor .activeInput s.in2
  row3 := ledFor .activeInput s.in3
  row4 := if s.displayPresent then .off else ledFor .activeInput s.in4
  status := .lit (.ofFamily s.family)
  outY := ledFor (if s.family = .dualNot then .invertedHue else .plainHue) s.y
  outYb := ledFor .invertedHue s.yb

end Sys2Proof.Machine
end

