-- ==== Sys2Proof/Machine/Conditions.lean ====
section
/-! DEFINITION. Sys2Proof/Machine/Conditions.lean: which of the four silent conditions an operation notes, in order
(60_exceptions.md R200 to R206). `note(En)` "changes no state" (00_scope.md R13), so this is a view beside `exec` and no
operation reads it (log 18). E3 is never detected (R203). -/

namespace Sys2Proof.Machine

/-- E4 once per unmapped character, in string order (R204, R206). -/
def textConditions (P : Params) (str : List Byte) : List Condition :=
  (str.filter fun c => (lookup P.font c).isNone).map fun _ => .e4

/-- E2 if the stored byte is 5 or more (R202). -/
def loadConditions (s : State) : List Condition := if (Family.ofByte s.nv).isNone then [.e2] else []

/-- E1 if no candidate acknowledges (R201). -/
def probeConditions (P : Params) (s : State) : List Condition :=
  if (probe P s).displayPresent then [] else [.e1]

/-- The conditions a drawing operation of the diagram notes (R182). -/
def drawOpConditions (P : Params) : DrawOp → List Condition
  | .setPix _ _ _ => []
  | .hline _ _ _ => []
  | .vline _ _ _ => []
  | .char _ _ _ c => textConditions P [c]
  | .text _ _ _ str => textConditions P str.chars

/-- The conditions an operation notes when it is executed in state `s` and not refused. -/
def conditionsOf (P : Params) : Instr → State → List Condition
  | .boot, s => loadConditions s ++ probeConditions P (loadFamily P (allPinsPlain s))
  | .cycle, s =>
    if s.displayPresent then
      (diagramOf P (evalGate (sampleButton P (sampleRows P s)))).flatMap (drawOpConditions P)
    else []
  | .rds _, _ => []
  | .ror _, _ => []
  | .bstart, _ => []
  | .bstop, _ => []
  | .bwrite _, _ => []
  | .bprobe, s => probeConditions P s
  | .dinit, _ => []
  | .dclear, _ => []
  | .dsetpix _ _ _, _ => []
  | .dhline _ _ _, _ => []
  | .dvline _ _ _, _ => []
  | .dflush, _ => []
  | .dchar _ _ _ c, _ => textConditions P [c]
  | .dtext _ _ _ str, _ => textConditions P str
  | .geval, _ => []
  | .cload, s => loadConditions s
  | .cstep _, _ => []
  | .nvupd _, _ => []

end Sys2Proof.Machine
end

