-- ==== Sys2Proof/Machine/Environment.lean ====
section
/-! DEFINITION. Sys2Proof/Machine/Environment.lean: the environment's answers to PinRead, named for claims: what the next
reads will see, the electrical premises of 20_memory.md R58 and the reference responder of 41_bit_protocol.md R120. No
operation uses this file: an answer is a free draw, and these are premises a claim may state. -/

namespace Sys2Proof.Machine

/-- The level that the i-th pin read from now (counting from 0) answers, if it reads pin `p` (R12, R58; log 8). -/
def levelAt (s : State) (p : InPin) (i : Nat) : Bool :=
  (s.pinAnswers.drop i).headD (Config.pinLevel (s.pinReads + i) p)

/-- R58 (a): an asserted wire reads what its latch drives. -/
def OutputReadsLatch (w : Wire) (s : State) : Prop :=
  s.pinMode[w.pin] = .output →
    nextLevel w.pin s = (match w with | .clk => s.latchClk | .dat => s.latchDat)

/-- R58 (b): a released pin that nothing outside pulls low reads 1. -/
def ReleasedReadsHigh (p : InPin) (s : State) : Prop := s.pinMode[p] = .pullUp → nextLevel p s = true

/-- R58 (c): a released pin that a device or outside driver holds low reads 0. -/
def ReleasedPulledLow (p : InPin) (s : State) : Prop := s.pinMode[p] = .pullUp → nextLevel p s = false

/-- Whether the reference responder with the devices `present` acknowledges a transaction that begins with the byte `b`
(R120). -/
def responderSelects (present : List DeviceAddr) (b : Byte) : Bool :=
  decide (b.extractLsb' 1 7 ∈ present) && !b.getLsbD 0

/-- The reference responder's answers to the data-wire samples of one transaction's bytes: 0 for every byte of a
transaction whose address byte it acknowledges, else 1 (R120). -/
def responderLevels (present : List DeviceAddr) : List Byte → List Bool
  | [] => []
  | b :: bs => (b :: bs).map fun _ => !responderSelects present b

end Sys2Proof.Machine
end

