-- ==== Sys2Proof/Safety.lean ====
section
/-! DEFINITION. Sys2Proof/Safety.lean: the terms claims use: the events of a byte and of a transaction, the invariant of a
session (10_state.md R38), and what a safe run is (00_scope.md R19). -/

namespace Sys2Proof.Machine

/-! ### Wire events as the rules list them -/

/-- The clock wire's pin (10_state.md R30). -/
abbrev clkPin : InPin := 7

/-- The data wire's pin (10_state.md R30). -/
abbrev datPin : InPin := 8

/-- The events of BSTART (41_bit_protocol.md R111). -/
def startEvents : List Event := [.rel datPin, .rel clkPin, .low datPin, .low clkPin]

/-- The events of BSTOP (R112). -/
def stopEvents : List Event := [.low datPin, .rel clkPin, .rel datPin]

/-- The three events of one data bit (R113). -/
def bitEvents (v : Bool) : List Event :=
  [if v then .rel datPin else .low datPin, .rel clkPin, .low clkPin]

/-- The 28 events of a byte whose ninth-clock sample is `sample` (R113). -/
def byteEvents (b : Byte) (sample : Bool) : List Event :=
  bitEvents (b.getLsbD 7) ++ bitEvents (b.getLsbD 6) ++ bitEvents (b.getLsbD 5) ++ bitEvents (b.getLsbD 4) ++
  bitEvents (b.getLsbD 3) ++ bitEvents (b.getLsbD 2) ++ bitEvents (b.getLsbD 1) ++ bitEvents (b.getLsbD 0) ++
  [.rel datPin, .rel clkPin, .rd datPin sample, .low clkPin]

/-- The events of a sequence of bytes; the i-th has the sample `samples (first + i)`. -/
def bytesEvents (samples : Nat → Bool) : Nat → List Byte → List Event
  | _, [] => []
  | first, b :: bs => byteEvents b (samples first) ++ bytesEvents samples (first + 1) bs

/-- The events of `Txn(a, bytes)` (R115, 30_encoding.md R87) whose samples begin with number `first`. -/
def txnEvents (samples : Nat → Bool) (first : Nat) (a : DeviceAddr) (bytes : List Byte) : List Event :=
  startEvents ++ bytesEvents samples first (addressByte a :: bytes) ++ stopEvents

/-- Both wires in one mode each, every other pin as in `v`. -/
def wiresSet (v : Vector PinMode 10) (clk dat : PinMode) : Vector PinMode 10 := (v.set 7 clk).set 8 dat

/-! ### Debounced samples (40_sampler.md R101, R102) -/

/-- The debounced value of pin `p` if it is sampled with the reads `n`, `n + 1`, `n + 2` from now. -/
def debouncedAt (s : State) (p : InPin) (n : Nat) : Bool :=
  maj3 (levelAt s p n) (levelAt s p (n + 1)) (levelAt s p (n + 2))

/-- The pins `rowOR` samples when the next read is number `n` from now: up to the first stable-true one under
`SHORT_CIRCUIT` (`sc`), else all. -/
def sampledPins (sc : Bool) (s : State) : Nat → List InPin → List InPin
  | _, [] => []
  | n, p :: ps => if debouncedAt s p n && sc then [p] else p :: sampledPins sc s (n + 3) ps

/-- Some pin of a list, sampled in order from read number `n`, has debounced value 1. -/
def anyDebounced (s : State) : Nat → List InPin → Bool
  | _, [] => false
  | n, p :: ps => debouncedAt s p n || anyDebounced s (n + 3) ps

/-- The RD events of a list of pins sampled in order from read number `n`. -/
def sampleEvents (s : State) : Nat → List InPin → List Event
  | _, [] => []
  | n, p :: ps =>
    [.rd p (levelAt s p n), .rd p (levelAt s p (n + 1)), .rd p (levelAt s p (n + 2))] ++ sampleEvents s (n + 3) ps

/-- The value of a row sampled from read number `n`, under the device's `SHORT_CIRCUIT` (R102, R103). -/
def rowValue (s : State) (n : Nat) (row : List InPin) : Bool :=
  anyDebounced s n (sampledPins Config.params.shortCircuit s n row)

/-- The events of that sampling. -/
def rowEvents (s : State) (n : Nat) (row : List InPin) : List Event :=
  sampleEvents s n (sampledPins Config.params.shortCircuit s n row)

/-- The number of the first read after that sampling. -/
def afterRow (s : State) (n : Nat) (row : List InPin) : Nat :=
  n + 3 * (sampledPins Config.params.shortCircuit s n row).length

/-- In a CYCLE from `s`: the number of the first read of row 2, of row 3, and after row 3
(46_sequencer_and_clients.md R182). -/
def row2Start (s : State) : Nat := afterRow s 0 row1
@[inherit_doc row2Start] def row3Start (s : State) : Nat := afterRow s (row2Start s) row2
@[inherit_doc row2Start] def rowsEnd (s : State) : Nat := afterRow s (row3Start s) row3

/-- The debounced button of a CYCLE from `s` with a display (R182). -/
def cycleButton (s : State) : Bool := debouncedAt s buttonPin (rowsEnd s)

/-- Whether that button value is a rising edge (45_config_fsm.md R172). -/
def cycleEdge (s : State) : Bool := !s.prevBtn && cycleButton s

/-! ### Events of the store and of the output pins -/

/-- The events of `nvUpdate(NV_ADDR, new)` on a store that holds `old` (45_config_fsm.md R173). -/
def updateEvents (old new : Byte) : List Event :=
  .nvr Config.params.nvAddr old :: (if old = new then [] else [.nvw Config.params.nvAddr new])

/-- The six events of GEVAL (44_gate_engine.md R161). -/
def outEvents (y yb : Bool) : List Event := [.out 0 y, .out 1 y, .out 2 y, .out 3 yb, .out 4 yb, .out 5 yb]

/-- The window frame's bytes after the address (42_display_controller.md R137). -/
def windowBytes : List Byte := Config.params.cmdPrefix ++ Config.params.winSeq

/-- The data frame's bytes after the address, for the framebuffer `m` (R137). -/
def dataBytes (m : Memory) : List Byte :=
  Config.params.dataPrefix ++ (List.range Config.fbBytes).map fun a => m.read a

/-- The bytes of DINIT's frame after the address (R131). -/
def initBytes : List Byte := Config.params.cmdPrefix ++ Config.params.initSeq

/-! ### Glyphs (43_text_renderer.md R152) -/

/-- The pixel (u, v) lies in the block of a lit bit of glyph `g` drawn at (x, y) with scale `k`; bit 7 of a column does
not count. -/
def GlyphCovers (g : Vector Byte 5) (x y : Int) (k : Nat) (u v : Int) : Prop :=
  ∃ col : Fin 5, ∃ row < 7, g[col].getLsbD row = true ∧
    x + ((col.val * k : Nat) : Int) ≤ u ∧ u < x + (((col.val + 1) * k : Nat) : Int) ∧
    y + ((row * k : Nat) : Int) ≤ v ∧ v < y + (((row + 1) * k : Nat) : Int)

/-- The first entry of a font for a character (30_encoding.md R89). -/
def fontEntry (font : List FontEntry) (c : Byte) : Option FontEntry := font.find? fun e => decide (e.code = c)

/-- The pixel (u, v) belongs to the character `c` drawn at (x, y) with scale `k`. -/
def CharCovers (P : Params) (x y : Int) (k : Nat) (c : Byte) (u v : Int) : Prop :=
  ∃ e, fontEntry P.font c = some e ∧ GlyphCovers e.columns x y k u v

/-- The pixel (u, v) belongs to the string `str` drawn from (x, y) with scale `k`: to its i-th character at
`x + i * GLYPH_ADVANCE * k` (R153). -/
def TextCovers (P : Params) (x y : Int) (k : Nat) (str : List Byte) (u v : Int) : Prop :=
  ∃ i, ∃ h : i < str.length, CharCovers P (x + ((i * (P.glyphAdvance * k) : Nat) : Int)) y k str[i] u v

/-! ### The invariant of a session -/

/-- What holds at reset and after every operation: the framebuffer is in canonical form and empty before its first
DCLEAR, and 10_state.md R38 (iii), (iv), (vi) with R25, R34 and R110 ("never drives a wire high"). -/
structure SessionInv (s : State) : Prop where
  fb_wf : s.fb.wf = true
  fb_empty : s.fbCleared = false → s.fb = []
  before_probe : s.probed = false → s.owner = .driver ∧ s.displayPresent = false
  owner_iff : s.probed = true → (s.owner = .driver ↔ s.displayPresent = true)
  other_pins : ∀ p : InPin, isWirePin p = false → s.pinMode[p] = .plain
  wires_plain : s.probed = true → s.displayPresent = false →
    s.pinMode[clkPin] = .plain ∧ s.pinMode[datPin] = .plain
  clk_low : s.pinMode[clkPin] = .output → s.latchClk = false
  dat_low : s.pinMode[datPin] = .output → s.latchDat = false
  address : s.displayPresent = true →
    s.dispAddr = Config.params.addrA ∨ s.dispAddr = Config.params.addrB

/-- Both wires released: the idle state (10_state.md R38 (v), 41_bit_protocol.md R116). -/
def WiresIdle (s : State) : Prop := s.pinMode[clkPin] = .pullUp ∧ s.pinMode[datPin] = .pullUp

/-- How many raw writes of the store a trace holds (20_memory.md R65). -/
def rawWrites (es : List Event) : Nat :=
  (es.filter fun e => match e with | .nvw _ _ => true | _ => false).length

/-- 10_state.md R38 (vii) for runs of BOOT and CYCLE: once CLOAD has run, the stored byte is the family in use, but for a
session that began with an invalid byte and has seen no button edge, so that its trace holds no raw write. Before CLOAD
(`unloaded`) a trace with a raw write ends in the family in use. -/
structure Persisted (s : State) : Prop where
  unloaded : s.familySet = false → s.nv = s.family.code ∨ rawWrites s.trace = 0
  loaded : s.familySet = true →
    s.nv = s.family.code ∨ (Family.ofByte s.nv = none ∧ rawWrites s.trace = 0)

/-- The state between two operations of a device that its own sequencer drives: no command word is pending and the
session invariant holds. -/
structure SequencerReady (s : State) : Prop where
  inv : SessionInv s
  no_command : s.commands = []

/-- CLOAD has run whenever the probe has, as BOOT has it (46_sequencer_and_clients.md R180, 70_reset_and_hazards.md
R221). -/
def LoadedWithProbe (s : State) : Prop := s.probed = true → s.familySet = true

/-- The cases of 93_implementation_defined.md U2 for registers: the operation reads `family` before CLOAD, or `in[1..n]`
before a CYCLE. The model runs them on the reset values (logs 4 and 5); a claim that is to hold whatever those items
hold after reset takes this being false as a premise. -/
def readsUnwritten : Instr → State → Bool
  | .geval, s => !s.familySet || !s.rowsSet
  | .cycle, s => !s.familySet
  | .cstep b, s => risingEdge b s && !s.familySet
  | .boot, _ => false
  | .rds _, _ => false
  | .ror _, _ => false
  | .bstart, _ => false
  | .bstop, _ => false
  | .bwrite _, _ => false
  | .bprobe, _ => false
  | .dinit, _ => false
  | .dclear, _ => false
  | .dsetpix _ _ _, _ => false
  | .dhline _ _ _, _ => false
  | .dvline _ _ _, _ => false
  | .dflush, _ => false
  | .dchar _ _ _ _, _ => false
  | .dtext _ _ _ _, _ => false
  | .cload, _ => false
  | .nvupd _, _ => false

/-- Executing `instrs` one after another from `s`, stopping at a refusal. -/
def runInstrs : List Instr → State → Result
  | [], s => .next s
  | i :: is, s =>
    match exec i s with
    | .next t => runInstrs is t
    | .fault r => .fault r
    | .refused r => .refused r

/-- The five drawing operations (46_sequencer_and_clients.md R184, 42_display_controller.md R138). -/
def isDrawing : Instr → Bool
  | .dsetpix _ _ _ => true
  | .dhline _ _ _ => true
  | .dvline _ _ _ => true
  | .dchar _ _ _ _ => true
  | .dtext _ _ _ _ => true
  | .boot => false
  | .cycle => false
  | .rds _ => false
  | .ror _ => false
  | .bstart => false
  | .bstop => false
  | .bwrite _ => false
  | .bprobe => false
  | .dinit => false
  | .dclear => false
  | .dflush => false
  | .geval => false
  | .cload => false
  | .cstep _ => false
  | .nvupd _ => false

end Sys2Proof.Machine
end

