-- ==== Sys2Proof/Certificates/Slice0/Obligations.lean ====
section
/-! DEFINITION. Sys2Proof/Certificates/Slice0/Obligations.lean: the statements for the provers. Every statement about an
instruction says its whole next state: a record update names what changes, so every field it does not name is
unchanged. -/

open Sys2Proof Sys2Proof.Machine

/-! ### Reset, step, encoding -/

/-- 10_state.md R39: what a reset leaves, for every byte found in the store. The zeros and the owner are the spec's
own decision (D14, D19; log 22). -/
def Obligations.ResetLeavesTheListedValues : Prop :=
  ∀ v : Byte, ∀ s : State, s = State.resetWith v →
    s.displayPresent = false ∧ s.probed = false ∧ s.prevBtn = false ∧ s.owner = .driver ∧
    (∀ p : InPin, s.pinMode[p] = .plain) ∧ s.nv = v ∧ s.trace = []

/-- 10_state.md R32, R39: a new session keeps the stored byte and nothing else of the block (log 19). -/
def Obligations.RestartKeepsTheStoredByte : Prop :=
  ∀ s : State, s.restart.nv = s.nv ∧ s.restart.probed = false ∧ s.restart.displayPresent = false ∧
    s.restart.prevBtn = false ∧ s.restart.trace = [] ∧ s.restart.owner = .driver ∧
    s.restart.fbCleared = false ∧ s.restart.familySet = false ∧ s.restart.rowsSet = false ∧
    (∀ p : InPin, s.restart.pinMode[p] = .plain)

/-- 30_encoding.md R70: a step runs the first pending command word, and the rest of the stream stays pending (log 1). -/
def Obligations.StepRunsThePendingCommand : Prop :=
  ∀ (s : State) (i : Instr) (rest : List Byte), s.commands ≠ [] → decode s.commands = .ok (i, rest) →
    step s = exec i { s with commands := rest }

/-- 70_reset_and_hazards.md R220: with no command pending the block performs BOOT and then CYCLE (log 1). -/
def Obligations.StepWithoutCommandRunsTheSequencer : Prop :=
  ∀ s : State, s.commands = [] → step s = exec (if s.probed then .cycle else .boot) s

/-- The model's choice (log 1): a placed table word is what the next step runs. -/
def Obligations.StepRunsThePlacedWord : Prop :=
  ∀ (s : State) (nbits w : Nat) (i : Instr) (rest : List Byte), decode (tableBytes nbits w) = .ok (i, rest) →
    step (s.withFetchWord nbits w) = exec i { s with commands := rest }

/-- 95_test_vectors.md section 9: words written out from the patterns of 30_encoding.md R73. The encoding is the
spec's own (D1; log 22). -/
def Obligations.DecodeReadsTheWrittenWords : Prop :=
  decode [0x01] = .ok (.boot, []) ∧
  decode [0x10, 0x09] = .ok (.rds 9, []) ∧
  decode [0x11, 0x03, 0x80] = .ok (.ror 0x380, []) ∧
  decode [0x22, 0x78] = .ok (.bwrite 0x78, []) ∧
  decode [0x33, 0xFF, 0xFB, 0x00, 0x02, 0x00, 0x00] = .ok (.dhline (-5) 2 0, []) ∧
  decode [0x41, 0x00, 0x0A, 0x00, 0x14, 0x02, 0x03, 0x41, 0x4E, 0x44] =
    .ok (.dtext 10 20 2 [0x41, 0x4E, 0x44], []) ∧
  decode [0x50] = .ok (.geval, []) ∧
  decode [0x61, 0x01] = .ok (.cstep true, [])

/-- 30_encoding.md R75: a reserved operation code, a non-zero padding bit and a pin index 10 to 15 are refused.
Refusing them is the spec's own decision (D29; log 22). -/
def Obligations.ReservedEncodingsAreRefused : Prop :=
  ∀ (s : State) (rest : List Byte),
    (∀ op : Byte, s.commands = op :: rest →
      (op.toNat = 0x00 ∨ (0x03 ≤ op.toNat ∧ op.toNat ≤ 0x0F) ∨ (0x12 ≤ op.toNat ∧ op.toNat ≤ 0x1F) ∨
        (0x24 ≤ op.toNat ∧ op.toNat ≤ 0x2F) ∨ (0x36 ≤ op.toNat ∧ op.toNat ≤ 0x3F) ∨
        (0x42 ≤ op.toNat ∧ op.toNat ≤ 0x4F) ∨ (0x51 ≤ op.toNat ∧ op.toNat ≤ 0x5F) ∨ 0x63 ≤ op.toNat) →
      step s = .refused (.undecodable (.reservedCode op))) ∧
    (∀ b : Byte, s.commands = 0x10 :: b :: rest → 10 ≤ b.toNat → b.toNat ≤ 15 →
      step s = .refused (.undecodable .reservedPin)) ∧
    (∀ b : Byte, s.commands = 0x10 :: b :: rest → 16 ≤ b.toNat →
      step s = .refused (.undecodable .nonzeroPadding)) ∧
    (∀ hi lo : Byte, s.commands = 0x11 :: hi :: lo :: rest → 4 ≤ hi.toNat →
      step s = .refused (.undecodable .nonzeroPadding)) ∧
    (∀ b : Byte, s.commands = 0x61 :: b :: rest → 2 ≤ b.toNat →
      step s = .refused (.undecodable .nonzeroPadding)) ∧
    (∀ x1 x0 y1 y0 b : Byte, s.commands = 0x32 :: x1 :: x0 :: y1 :: y0 :: b :: rest → 2 ≤ b.toNat →
      step s = .refused (.undecodable .nonzeroPadding))

/-- 30_encoding.md R72 to R76: decoding a well-formed instruction's command word gives the instruction back, whatever
follows it in the stream. The encoding is the spec's own (D1; log 22). -/
def Obligations.DecodeInvertsEncode : Prop :=
  ∀ (i : Instr) (rest : List Byte), i.wellFormed = true → decode (encode i ++ rest) = .ok (i, rest)

/-- 30_encoding.md R72 to R76: every command word has one spelling; what the decoder reads is well-formed and encodes
to the very bytes it was read from. The encoding is the spec's own (D1; log 22), and a truncated word has no meaning
(log 3). -/
def Obligations.EncodeInvertsDecode : Prop :=
  ∀ (bytes rest : List Byte) (i : Instr), decode bytes = .ok (i, rest) →
    i.wellFormed = true ∧ encode i ++ rest = bytes

/-! ### Sampler -/

/-- 40_sampler.md R101: three reads, the majority in `res`, nothing else. `owner` and `res` are the spec's own (D1,
D19; log 22); the answers are free (log 8). -/
def Obligations.RdsTakesTheMajorityOfThreeReads : Prop :=
  ∀ (p : InPin) (s : State), ¬(s.owner = .driver ∧ (p = clkPin ∨ p = datPin)) →
    exec (.rds p) s = .next
      { s with
        res := maj3 (levelAt s p 0) (levelAt s p 1) (levelAt s p 2)
        trace := s.trace ++ [.rd p (levelAt s p 0), .rd p (levelAt s p 1), .rd p (levelAt s p 2)]
        pinAnswers := s.pinAnswers.drop 3
        pinReads := s.pinReads + 3 }

/-- 40_sampler.md R102: pins sampled in ascending order, up to the first stable-true one under `SHORT_CIRCUIT`; `res`
is whether one of them was stable-true; nothing else. The order is the spec's own decision (D5; log 22); the answers
are free (log 8). -/
def Obligations.RorSamplesItsGroupInOrder : Prop :=
  ∀ (m : BitVec 10) (s : State),
    ¬(s.owner = .driver ∧ (m.getLsbD 7 = true ∨ m.getLsbD 8 = true)) →
    exec (.ror m) s = .next
      { s with
        res := rowValue s 0 (pinsOfMask m)
        trace := s.trace ++ rowEvents s 0 (pinsOfMask m)
        pinAnswers := s.pinAnswers.drop (afterRow s 0 (pinsOfMask m))
        pinReads := s.pinReads + afterRow s 0 (pinsOfMask m) }

/-- 40_sampler.md R102, R104: if the environment answers pin p's three reads with `samples p`, ROR gives 1 exactly
when some pin of the group has majority 1, under both settings of `SHORT_CIRCUIT`. R104's second sentence is the
spec's own derivation. -/
def Obligations.RorIsTheOrOfDebouncedPins : Prop :=
  ∀ (m : BitVec 10) (s : State) (rest : List Bool) (samples : InPin → Bool × Bool × Bool),
    ¬(s.owner = .driver ∧ (m.getLsbD 7 = true ∨ m.getLsbD 8 = true)) →
    s.pinAnswers =
      (pinsOfMask m).flatMap (fun p => [(samples p).1, (samples p).2.1, (samples p).2.2]) ++ rest →
    ∃ t, exec (.ror m) s = .next t ∧
      (t.res = true ↔
        ∃ p : InPin, m.getLsbD p.val = true ∧ maj3 (samples p).1 (samples p).2.1 (samples p).2.2 = true)

/-- 10_state.md R34, 40_sampler.md R101, R102: the Sampler is refused IP7 and IP8 while the driver owns them, a group
as a whole, and so is a CYCLE that would sample row 4. `owner` is the spec's own (D19; log 22). -/
def Obligations.SamplerIsRefusedTheDriversPins : Prop :=
  ∀ s : State, s.owner = .driver →
    (∀ p : InPin, p = clkPin ∨ p = datPin → exec (.rds p) s = .refused .pinOwnedByDriver) ∧
    (∀ m : BitVec 10, m.getLsbD 7 = true ∨ m.getLsbD 8 = true → exec (.ror m) s = .refused .pinOwnedByDriver) ∧
    (s.probed = true → s.displayPresent = false → exec .cycle s = .refused .pinOwnedByDriver)

/-! ### Bit-Protocol Driver -/

/-- 41_bit_protocol.md R111. The wire sequence is general knowledge (G2, D6; log 21), one step per wire action (D25;
log 16). -/
def Obligations.BstartDrivesTheStartSequence : Prop :=
  ∀ s : State, s.owner = .driver →
    exec .bstart s = .next
      { s with
        pinMode := wiresSet s.pinMode .output .output
        latchClk := false
        latchDat := false
        trace := s.trace ++ [.rel datPin, .rel clkPin, .low datPin, .low clkPin] }

/-- 41_bit_protocol.md R112. The wire sequence is general knowledge (G2, D6; log 21). -/
def Obligations.BstopDrivesTheStopSequence : Prop :=
  ∀ s : State, s.owner = .driver →
    exec .bstop s = .next
      { s with
        pinMode := wiresSet s.pinMode .pullUp .pullUp
        latchDat := false
        trace := s.trace ++ [.low datPin, .rel clkPin, .rel datPin] }

/-- 41_bit_protocol.md R113: 28 events, `res` is the acknowledge, the data wire released and the clock low; the data
latch is written only if some bit of the byte is 0. The place of the sample is general knowledge (G3, D6; log 21). -/
def Obligations.BwriteShiftsTheByteAndSamplesTheAcknowledge : Prop :=
  ∀ (b : Byte) (s : State), s.owner = .driver →
    exec (.bwrite b) s = .next
      { s with
        res := !levelAt s datPin 0
        pinMode := wiresSet s.pinMode .output .pullUp
        latchClk := false
        latchDat := s.latchDat && decide (b = 0xFF)
        trace := s.trace ++ byteEvents b (levelAt s datPin 0)
        pinAnswers := s.pinAnswers.drop 1
        pinReads := s.pinReads + 1 }

/-- 41_bit_protocol.md R114: the first candidate that acknowledges wins; its address is latched and the wires stay
with the driver, released. The wire events rest on G1 to G3 (log 21), `owner`, `probed` and `res` on D1 and D19 (log
22). -/
def Obligations.BprobeLatchesTheFirstAcknowledge : Prop :=
  ∀ s : State, s.probed = false → s.owner = .driver →
    (levelAt s datPin 0 = false →
      exec .bprobe s = .next
        { s with
          dispAddr := Config.params.addrA
          displayPresent := true
          probed := true
          res := true
          pinMode := wiresSet s.pinMode .pullUp .pullUp
          latchClk := false
          latchDat := false
          trace := s.trace ++ txnEvents (levelAt s datPin) 0 Config.params.addrA []
          pinAnswers := s.pinAnswers.drop 1
          pinReads := s.pinReads + 1 }) ∧
    (levelAt s datPin 0 = true → levelAt s datPin 1 = false →
      exec .bprobe s = .next
        { s with
          dispAddr := Config.params.addrB
          displayPresent := true
          probed := true
          res := true
          pinMode := wiresSet s.pinMode .pullUp .pullUp
          latchClk := false
          latchDat := false
          trace := s.trace ++ txnEvents (levelAt s datPin) 0 Config.params.addrA [] ++
            txnEvents (levelAt s datPin) 1 Config.params.addrB []
          pinAnswers := s.pinAnswers.drop 2
          pinReads := s.pinReads + 2 })

/-- 60_exceptions.md R201 (with 41_bit_protocol.md R114): when neither candidate acknowledges, no display, both wires
plain inputs, the pins to the Sampler. The clauses on the wire events and the latches rest on R111 to R113 (general
knowledge G1 to G3; log 21), those on `owner`, `probed` and `res` on R34 and R114 (D1, D19; log 22). -/
def Obligations.BprobeFallsBackToPlainInputs : Prop :=
  ∀ s : State, s.probed = false → s.owner = .driver →
    levelAt s datPin 0 = true → levelAt s datPin 1 = true →
    exec .bprobe s = .next
      { s with
        displayPresent := false
        probed := true
        owner := .sampler
        res := false
        pinMode := wiresSet s.pinMode .plain .plain
        latchClk := false
        latchDat := false
        trace := s.trace ++ txnEvents (levelAt s datPin) 0 Config.params.addrA [] ++
          txnEvents (levelAt s datPin) 1 Config.params.addrB [] ++ [.inp clkPin, .inp datPin]
        pinAnswers := s.pinAnswers.drop 2
        pinReads := s.pinReads + 2 }

/-- 41_bit_protocol.md R114, R120, 30_encoding.md R86: if the reference responder with the devices `present` answers the
two address bytes, BPROBE finds a display exactly when a candidate is present, and latches the first one. The responder
and the address byte are general knowledge (G1, G6; log 21). -/
def Obligations.ProbeFindsTheFirstPresentCandidate : Prop :=
  ∀ (present : List DeviceAddr) (s : State) (rest : List Bool), s.probed = false → s.owner = .driver →
    s.pinAnswers = responderLevels present [addressByte Config.params.addrA] ++
      responderLevels present [addressByte Config.params.addrB] ++ rest →
    ∃ t, exec .bprobe s = .next t ∧ t.probed = true ∧
      (t.displayPresent = true ↔ Config.params.addrA ∈ present ∨ Config.params.addrB ∈ present) ∧
      (Config.params.addrA ∈ present → t.dispAddr = Config.params.addrA) ∧
      (Config.params.addrA ∉ present → Config.params.addrB ∈ present → t.dispAddr = Config.params.addrB) ∧
      (t.displayPresent = false → t.owner = .sampler ∧ t.pinMode[clkPin] = .plain ∧ t.pinMode[datPin] = .plain)

/-- 10_state.md R34, 41_bit_protocol.md R110: no operation drives the wires while the Sampler owns them. `owner` is
the spec's own (D19; log 22); which reason is named first is log 24. -/
def Obligations.WireOperationsNeedTheDriver : Prop :=
  ∀ s : State, s.owner = .sampler →
    exec .bstart s = .refused .wiresOwnedBySampler ∧ exec .bstop s = .refused .wiresOwnedBySampler ∧
    (∀ b, exec (.bwrite b) s = .refused .wiresOwnedBySampler) ∧
    (s.probed = false → exec .bprobe s = .refused .wiresOwnedBySampler) ∧
    (s.probed = false → exec .boot s = .refused .wiresOwnedBySampler) ∧
    (s.displayPresent = true → exec .dinit s = .refused .wiresOwnedBySampler ∧
      exec .dflush s = .refused .wiresOwnedBySampler) ∧
    (s.probed = true → s.displayPresent = true →
      exec .cycle s = .refused .wiresOwnedBySampler)

/-- 41_bit_protocol.md R114, 46_sequencer_and_clients.md R180, R182, 44_gate_engine.md R161: the probe and the boot
run once per session, and GEVAL and CYCLE only after the probe. `probed` is the spec's own (D19; log 22). -/
def Obligations.ProbeOrdersTheSession : Prop :=
  ∀ s : State,
    (s.probed = true → exec .bprobe s = .refused .probeRunsOnce ∧ exec .boot s = .refused .bootRunsOnce) ∧
    (s.probed = false → exec .geval s = .refused .topologyUndecided ∧ exec .cycle s = .refused .bootHasNotRun)

/-! ### Display Controller -/

/-- 42_display_controller.md R131: one command frame holding `INIT_SEQ`; every acknowledge is read and discarded. The
wire events rest on G1 to G3 (log 21), the framing on D8 (log 22). -/
def Obligations.DinitSendsOneCommandFrame : Prop :=
  ∀ s : State, s.displayPresent = true → s.owner = .driver →
    exec .dinit s = .next
      { s with
        pinMode := wiresSet s.pinMode .pullUp .pullUp
        latchClk := false
        latchDat := false
        trace := s.trace ++ txnEvents (levelAt s datPin) 0 s.dispAddr
          (Config.params.cmdPrefix ++ Config.params.initSeq)
        pinAnswers := s.pinAnswers.drop ((Config.params.cmdPrefix ++ Config.params.initSeq).length + 1)
        pinReads := s.pinReads + ((Config.params.cmdPrefix ++ Config.params.initSeq).length + 1) }

/-- 42_display_controller.md R137: one command frame holding `WIN_SEQ`, one data frame holding the 1024 bytes of the
framebuffer in ascending address order; `fb` and `res` are unchanged. The wire events rest on G1 to G3 (log 21), the
framing on D8 (log 22). -/
def Obligations.DflushSendsTheWholeFramebuffer : Prop :=
  ∀ s : State, s.displayPresent = true → s.owner = .driver → s.fbCleared = true →
    ∀ window frame : List Byte, window = Config.params.cmdPrefix ++ Config.params.winSeq →
    frame = Config.params.dataPrefix ++ (List.range 1024).map (fun a => s.fb.read a) →
    exec .dflush s = .next
      { s with
        pinMode := wiresSet s.pinMode .pullUp .pullUp
        latchClk := false
        latchDat := false
        trace := s.trace ++ txnEvents (levelAt s datPin) 0 s.dispAddr window ++
          txnEvents (levelAt s datPin) (window.length + 1) s.dispAddr frame
        pinAnswers := s.pinAnswers.drop (window.length + 1 + (frame.length + 1))
        pinReads := s.pinReads + (window.length + 1 + (frame.length + 1)) }

/-- 42_display_controller.md R132: every byte of `fb` is 0x00, every pixel off, nothing else changes. The operation is
the spec's own (D13; log 22). -/
def Obligations.DclearClearsEveryByte : Prop :=
  ∀ s : State, ∃ t, exec .dclear s = .next t ∧ t = { s with fb := t.fb, fbCleared := true } ∧
    (∀ a, t.fb.read a = 0) ∧ ∀ x y, pixelAt t.fb x y = false

/-- 42_display_controller.md R133: DSETPIX writes its own pixel if it lies on the screen, and nothing else; off the
screen it does nothing at all, cleared framebuffer or not. The bit order is the spec's own decision (D9; log 22); the
refusal before the first clear is log 14. -/
def Obligations.DsetpixWritesItsOwnPixel : Prop :=
  ∀ (x y : Coord) (on : Bool) (s : State),
    (s.fbCleared = true → ∃ t, exec (.dsetpix x y on) s = .next t ∧ t = { s with fb := t.fb } ∧
      (∀ u v, pixelAt t.fb u v =
        if onScreen u v = true ∧ u = x.toInt ∧ v = y.toInt then on else pixelAt s.fb u v) ∧
      ∀ a, (onScreen x.toInt y.toInt = true → a ≠ pixelByte x.toInt y.toInt) → t.fb.read a = s.fb.read a) ∧
    (onScreen x.toInt y.toInt = false → exec (.dsetpix x y on) s = .next s)

/-- 42_display_controller.md R134: DHLINE turns on the pixels between its endpoints, both included, that lie on the
screen, and changes nothing else. Signature, ends and colour are the spec's own decision (D11; log 22). -/
def Obligations.DhlineTurnsOnItsSegment : Prop :=
  ∀ (x0 x1 y : Coord) (s : State), s.fbCleared = true →
    ∃ t, exec (.dhline x0 x1 y) s = .next t ∧ t = { s with fb := t.fb } ∧
      (∀ u v, pixelAt t.fb u v =
        if onScreen u v = true ∧ v = y.toInt ∧ min x0.toInt x1.toInt ≤ u ∧ u ≤ max x0.toInt x1.toInt then true
        else pixelAt s.fb u v) ∧
      ∀ a, (∀ u, onScreen u y.toInt = true → min x0.toInt x1.toInt ≤ u → u ≤ max x0.toInt x1.toInt →
        a ≠ pixelByte u y.toInt) → t.fb.read a = s.fb.read a

/-- 42_display_controller.md R135: DVLINE, the vertical twin. Signature, ends and colour are the spec's own decision
(D11; log 22). -/
def Obligations.DvlineTurnsOnItsSegment : Prop :=
  ∀ (x y0 y1 : Coord) (s : State), s.fbCleared = true →
    ∃ t, exec (.dvline x y0 y1) s = .next t ∧ t = { s with fb := t.fb } ∧
      (∀ u v, pixelAt t.fb u v =
        if onScreen u v = true ∧ u = x.toInt ∧ min y0.toInt y1.toInt ≤ v ∧ v ≤ max y0.toInt y1.toInt then true
        else pixelAt s.fb u v) ∧
      ∀ a, (∀ v, onScreen x.toInt v = true → min y0.toInt y1.toInt ≤ v → v ≤ max y0.toInt y1.toInt →
        a ≠ pixelByte x.toInt v) → t.fb.read a = s.fb.read a

/-- 42_display_controller.md R130, R131, R137, 45_config_fsm.md R172: without a display DINIT, DFLUSH and CSTEP are
refused. -/
def Obligations.DisplayOperationsNeedADisplay : Prop :=
  ∀ s : State, s.displayPresent = false →
    exec .dinit s = .refused .noDisplay ∧ exec .dflush s = .refused .noDisplay ∧
    ∀ b, exec (.cstep b) s = .refused .noButton

/-- 70_reset_and_hazards.md R223: before the first DCLEAR an operation that would read a byte of `fb` is refused, and
a drawing operation that touches no pixel of the screen does nothing. That a drawing operation is refused exactly when
it touches the screen is the model's reading (logs 5 and 14). -/
def Obligations.DrawingBeforeTheFirstClearIsRefused : Prop :=
  ∀ s : State, s.fbCleared = false →
    (s.displayPresent = true → s.owner = .driver → exec .dflush s = .refused .framebufferUnwritten) ∧
    (∀ x y on, exec (.dsetpix x y on) s =
      if onScreen x.toInt y.toInt = true then .refused .framebufferUnwritten else .next s) ∧
    (∀ x0 x1 y : Coord, (∃ u, min x0.toInt x1.toInt ≤ u ∧ u ≤ max x0.toInt x1.toInt ∧ onScreen u y.toInt = true) →
      exec (.dhline x0 x1 y) s = .refused .framebufferUnwritten) ∧
    (∀ x0 x1 y : Coord, (¬∃ u, min x0.toInt x1.toInt ≤ u ∧ u ≤ max x0.toInt x1.toInt ∧ onScreen u y.toInt = true) →
      exec (.dhline x0 x1 y) s = .next s) ∧
    (∀ x y0 y1 : Coord, (∃ v, min y0.toInt y1.toInt ≤ v ∧ v ≤ max y0.toInt y1.toInt ∧ onScreen x.toInt v = true) →
      exec (.dvline x y0 y1) s = .refused .framebufferUnwritten) ∧
    (∀ x y0 y1 : Coord, (¬∃ v, min y0.toInt y1.toInt ≤ v ∧ v ≤ max y0.toInt y1.toInt ∧ onScreen x.toInt v = true) →
      exec (.dvline x y0 y1) s = .next s) ∧
    (∀ (x y : Coord) (k c : Byte), k ≠ 0 →
      ((∃ u v, onScreen u v = true ∧ CharCovers Config.params x.toInt y.toInt k.toNat c u v) →
        exec (.dchar x y k c) s = .refused .framebufferUnwritten) ∧
      ((¬∃ u v, onScreen u v = true ∧ CharCovers Config.params x.toInt y.toInt k.toNat c u v) →
        exec (.dchar x y k c) s = .next s)) ∧
    (∀ (x y : Coord) (k : Byte) (str : List Byte), k ≠ 0 →
      ((∃ u v, onScreen u v = true ∧ TextCovers Config.params x.toInt y.toInt k.toNat str u v) →
        exec (.dtext x y k str) s = .refused .framebufferUnwritten) ∧
      ((¬∃ u v, onScreen u v = true ∧ TextCovers Config.params x.toInt y.toInt k.toNat str u v) →
        exec (.dtext x y k str) s = .next s))

/-- 42_display_controller.md R138: DCLEAR and then drawing operations leave a framebuffer that depends on those
operations alone, whatever the two states they start from. R138 marks its restatement as derived. -/
def Obligations.DrawingIsDeterminedByItsCalls : Prop :=
  ∀ (ds : List Instr) (s s' t t' : State), (∀ d ∈ ds, isDrawing d = true) →
    runInstrs (.dclear :: ds) s = .next s' → runInstrs (.dclear :: ds) t = .next t' → s'.fb = t'.fb

/-! ### Text renderer -/

/-- 43_text_renderer.md R152: DCHAR turns on the pixels of its glyph's lit blocks that lie on the screen, and changes
nothing else; an unmapped character has none. Unlit bits are not drawn: D12 (log 22). -/
def Obligations.DcharTurnsOnItsGlyph : Prop :=
  ∀ (x y : Coord) (k c : Byte) (s : State), k ≠ 0 → s.fbCleared = true →
    ∃ t, exec (.dchar x y k c) s = .next t ∧ t = { s with fb := t.fb } ∧
      (∀ u v, pixelAt t.fb u v = true ↔ pixelAt s.fb u v = true ∨
        (onScreen u v = true ∧ CharCovers Config.params x.toInt y.toInt k.toNat c u v)) ∧
      ∀ a, (∀ u v, onScreen u v = true → CharCovers Config.params x.toInt y.toInt k.toNat c u v →
        a ≠ pixelByte u v) → t.fb.read a = s.fb.read a

/-- 43_text_renderer.md R153: DTEXT turns on the pixels of its characters, the i-th at `x + i * GLYPH_ADVANCE * k`,
and changes nothing else. The advance and its scaling are general knowledge (G5, D12; logs 21 and 22). -/
def Obligations.DtextTurnsOnItsCharacters : Prop :=
  ∀ (x y : Coord) (k : Byte) (str : List Byte) (s : State), k ≠ 0 → s.fbCleared = true →
    ∃ t, exec (.dtext x y k str) s = .next t ∧ t = { s with fb := t.fb } ∧
      (∀ u v, pixelAt t.fb u v = true ↔ pixelAt s.fb u v = true ∨
        (onScreen u v = true ∧ TextCovers Config.params x.toInt y.toInt k.toNat str u v)) ∧
      ∀ a, (∀ u v, onScreen u v = true → TextCovers Config.params x.toInt y.toInt k.toNat str u v →
        a ≠ pixelByte u v) → t.fb.read a = s.fb.read a

/-- 43_text_renderer.md R151: scale 0 is refused. -/
def Obligations.ScaleZeroIsRefused : Prop :=
  ∀ (x y : Coord) (c : Byte) (str : List Byte) (s : State),
    exec (.dchar x y 0 c) s = .refused .scaleZero ∧ exec (.dtext x y 0 str) s = .refused .scaleZero

/-- 60_exceptions.md R204, 43_text_renderer.md R152, R153: an unmapped character is not drawn, and the characters after it
stand where they would have stood. For every configuration `P`. The advance by `GLYPH_ADVANCE * k` is general knowledge
(G5; log 21), and that drawing it completes in every state, before a clear too, is the model's reading (log 14). -/
def Obligations.UnmappedCharacterKeepsTheLayout : Prop :=
  ∀ (P : Params) (cx y : Int) (k : Nat) (c : Byte) (cs : List Byte), fontEntry P.font c = none →
    charPixels P cx y k c = [] ∧
    textPixels P cx y k (c :: cs) = textPixels P (cx + ((P.glyphAdvance * k : Nat) : Int)) y k cs ∧
    ∀ s : State, draw (charPixels P cx y k c) true s = .next s

/-- 43_text_renderer.md R154: replacing a character by an unmapped one changes only the pixels of that character's own
glyph. For every configuration `P` and framebuffer `m`. R154 is the spec's own derivation;
that the i-th character stands at `x + i * GLYPH_ADVANCE * k` is general knowledge (G5, D12; logs 21 and 22). -/
def Obligations.LayoutIsStableUnderUnmapping : Prop :=
  ∀ (P : Params) (m : Memory) (x y : Int) (k : Nat) (before after : List Byte) (c c' : Byte) (u v : Int),
    fontEntry P.font c' = none →
    pixelAt (paint (textPixels P x y k (before ++ c :: after)) true m) u v ≠
      pixelAt (paint (textPixels P x y k (before ++ c' :: after)) true m) u v →
    CharCovers P (x + ((before.length * (P.glyphAdvance * k) : Nat) : Int)) y k c u v

/-! ### Gate Engine -/

/-- 44_gate_engine.md R162. -/
def Obligations.AndNandIsTheAndOfTheRows : Prop :=
  ∀ s : State, s.probed = true → s.family = .andNand →
    ∃ t, exec .geval s = .next t ∧ t.yb = !t.y ∧
      (s.displayPresent = true → t.y = (s.in1 && s.in2 && s.in3)) ∧
      (s.displayPresent = false → t.y = (s.in1 && s.in2 && s.in3 && s.in4))

/-- 44_gate_engine.md R163. -/
def Obligations.OrNorIsTheOrOfTheRows : Prop :=
  ∀ s : State, s.probed = true → s.family = .orNor →
    ∃ t, exec .geval s = .next t ∧ t.yb = !t.y ∧
      (s.displayPresent = true → t.y = (s.in1 || s.in2 || s.in3)) ∧
      (s.displayPresent = false → t.y = (s.in1 || s.in2 || s.in3 || s.in4))

/-- 44_gate_engine.md R164: odd parity of all rows in scope. -/
def Obligations.XorXnorIsTheParityOfTheRows : Prop :=
  ∀ s : State, s.probed = true → s.family = .xorXnor →
    ∃ t, exec .geval s = .next t ∧ t.yb = !t.y ∧
      (s.displayPresent = true → t.y = (s.in1 ^^ s.in2 ^^ s.in3)) ∧
      (s.displayPresent = false → t.y = (s.in1 ^^ s.in2 ^^ s.in3 ^^ s.in4))

/-- 44_gate_engine.md R165: at least 2 of 3, at least 3 of 4. -/
def Obligations.MajMinIsTheMajorityOfTheRows : Prop :=
  ∀ s : State, s.probed = true → s.family = .majMin →
    ∃ t, exec .geval s = .next t ∧ t.yb = !t.y ∧
      (s.displayPresent = true → (t.y = true ↔ 2 ≤ s.in1.toNat + s.in2.toNat + s.in3.toNat)) ∧
      (s.displayPresent = false → (t.y = true ↔ 3 ≤ s.in1.toNat + s.in2.toNat + s.in3.toNat + s.in4.toNat))

/-- 44_gate_engine.md R166: two independent inverters, in both modes. -/
def Obligations.DualNotInvertsRowsTwoAndThree : Prop :=
  ∀ s : State, s.probed = true → s.family = .dualNot →
    ∃ t, exec .geval s = .next t ∧ t.y = !s.in2 ∧ t.yb = !s.in3

/-- 44_gate_engine.md R161, 10_state.md R31: GEVAL drives OP0 to OP2 with `Y` and OP3 to OP5 with `Yb` and changes
nothing else; with a display `in[4]` plays no part. One step for the six pins is the spec's own decision (D30; logs 16
and 22). -/
def Obligations.GevalDrivesEachOutputOnThreePins : Prop :=
  ∀ s : State, s.probed = true →
    ∃ y yb : Bool,
      exec .geval s = .next
        { s with
          y := y
          yb := yb
          outPin := #v[y, y, y, yb, yb, yb]
          trace := s.trace ++ [.out 0 y, .out 1 y, .out 2 y, .out 3 yb, .out 4 yb, .out 5 yb] } ∧
      (y, yb) = gate s.family
        (if s.displayPresent then [s.in1, s.in2, s.in3] else [s.in1, s.in2, s.in3, s.in4])

/-- 70_reset_and_hazards.md R221: a device that its own sequencer drives never reads `family` or `in[1..n]` before it is
written. The second clause is the model's choice (DESIGN CHOICE, logs 4 and 5): after a single BPROBE from reset, GEVAL,
CYCLE and an edge of CSTEP run on the reset values, AND_NAND and rows 0. -/
def Obligations.ReadsBeforeTheFirstWrite : Prop :=
  (∀ (s t : State) (k : Nat), SequencerReady s → LoadedWithProbe s → Host.Core.run Sys2Proof.core k s = .next t →
    readsUnwritten (if t.probed then .cycle else .boot) t = false) ∧
  ∀ (v : Byte) (answers : List Bool) (t : State),
    exec .bprobe { State.resetWith v with pinAnswers := answers } = .next t →
    (∃ u, exec .geval t = .next u ∧ u.y = false ∧ u.yb = true) ∧ (∃ u, exec .cycle t = .next u) ∧
    (t.displayPresent = true →
      ∃ u, exec (.cstep true) t = .next u ∧ u.family = .orNor ∧ u.nv = 1 ∧ u.prevBtn = true)

/-! ### Configuration State Machine -/

/-- 45_config_fsm.md R171, 60_exceptions.md R202: a stored byte 0 to 4 is the family, any other selects the factory
default; the store is not written. That nothing is written is the spec's own decision (D15), and so are the codes (D3;
log 22); the mark `familySet` is the model's (log 5). -/
def Obligations.CloadTakesTheStoredFamilyOrTheDefault : Prop :=
  ∀ s : State, ∃ f : Family,
    exec .cload s = .next
      { s with family := f, familySet := true, trace := s.trace ++ [.nvr Config.params.nvAddr s.nv] } ∧
    (s.nv.toNat ≤ 4 → f.code = s.nv) ∧ (5 ≤ s.nv.toNat → f = Config.params.factoryDefault)

/-- 45_config_fsm.md R172: a rising edge advances the family modulo 5 and persists it in the same operation; otherwise
only `prev_btn` is written. The polarity is the spec's own decision (D4; log 22). -/
def Obligations.CstepAdvancesOnARisingEdge : Prop :=
  ∀ (b : Bool) (s : State), s.displayPresent = true →
    ((s.prevBtn = true ∨ b = false) → exec (.cstep b) s = .next { s with prevBtn := b }) ∧
    (s.prevBtn = false → b = true → ∃ f : Family,
      f.code.toNat = (s.family.code.toNat + 1) % 5 ∧
      exec (.cstep b) s = .next
        { s with
          prevBtn := true
          family := f
          nv := f.code
          trace := s.trace ++ [.nvr Config.params.nvAddr s.nv] ++
            (if s.nv = f.code then [] else [.nvw Config.params.nvAddr f.code]) })

/-- 45_config_fsm.md R173: compare, then write only what differs. -/
def Obligations.NvupdWritesOnlyADifferentByte : Prop :=
  ∀ (v : Byte) (s : State),
    (s.nv = v → exec (.nvupd v) s = .next { s with trace := s.trace ++ [.nvr Config.params.nvAddr v] }) ∧
    (s.nv ≠ v → exec (.nvupd v) s = .next
      { s with
        nv := v
        trace := s.trace ++ [.nvr Config.params.nvAddr s.nv, .nvw Config.params.nvAddr v] })

/-- 45_config_fsm.md R174: five confirmed presses close the cycle, each with one raw write, and the store holds the
family again. R174 marks its restatement as derived. -/
def Obligations.FivePressesReturnTheFamily : Prop :=
  ∀ s : State, s.displayPresent = true → s.prevBtn = false →
    s.nv = s.family.code ∨ Family.ofByte s.nv = none →
    ∃ t es, runInstrs (List.flatten (List.replicate 5 [.cstep true, .cstep false])) s = .next t ∧
      t.family = s.family ∧ t.nv = s.family.code ∧ t.trace = s.trace ++ es ∧ rawWrites es = 5

/-! ### Sequencer -/

/-- 46_sequencer_and_clients.md R180: BOOT reads the store, probes, and with a display found sends DINIT's frame to the
latched address; every event, every answer used, what it leaves and what it does not touch. The three clauses are the
three answers to the probe (R114). The order of the steps is the spec's own decision (D17), `owner`, `probed` and `res`
rest on D1 and D19 (log 22), the wire events and latches on G1 to G3 (log 21), one step per wire action on D25 (log 16). -/
def Obligations.BootDecidesTheSession : Prop :=
  ∀ s : State, s.probed = false → s.owner = .driver →
    (levelAt s datPin 0 = false →
      exec .boot s = .next
        { s with
          family := (Family.ofByte s.nv).getD Config.params.factoryDefault
          familySet := true
          displayPresent := true
          probed := true
          dispAddr := Config.params.addrA
          res := true
          pinMode := wiresSet (Vector.replicate 10 .plain) .pullUp .pullUp
          latchClk := false
          latchDat := false
          trace := s.trace ++ [.nvr Config.params.nvAddr s.nv] ++
            txnEvents (levelAt s datPin) 0 Config.params.addrA [] ++
            txnEvents (levelAt s datPin) 1 Config.params.addrA initBytes
          pinAnswers := s.pinAnswers.drop (1 + (initBytes.length + 1))
          pinReads := s.pinReads + (1 + (initBytes.length + 1)) }) ∧
    (levelAt s datPin 0 = true → levelAt s datPin 1 = false →
      exec .boot s = .next
        { s with
          family := (Family.ofByte s.nv).getD Config.params.factoryDefault
          familySet := true
          displayPresent := true
          probed := true
          dispAddr := Config.params.addrB
          res := true
          pinMode := wiresSet (Vector.replicate 10 .plain) .pullUp .pullUp
          latchClk := false
          latchDat := false
          trace := s.trace ++ [.nvr Config.params.nvAddr s.nv] ++
            txnEvents (levelAt s datPin) 0 Config.params.addrA [] ++
            txnEvents (levelAt s datPin) 1 Config.params.addrB [] ++
            txnEvents (levelAt s datPin) 2 Config.params.addrB initBytes
          pinAnswers := s.pinAnswers.drop (2 + (initBytes.length + 1))
          pinReads := s.pinReads + (2 + (initBytes.length + 1)) }) ∧
    (levelAt s datPin 0 = true → levelAt s datPin 1 = true →
      exec .boot s = .next
        { s with
          family := (Family.ofByte s.nv).getD Config.params.factoryDefault
          familySet := true
          displayPresent := false
          probed := true
          owner := .sampler
          res := false
          pinMode := Vector.replicate 10 .plain
          latchClk := false
          latchDat := false
          trace := s.trace ++ [.nvr Config.params.nvAddr s.nv] ++
            txnEvents (levelAt s datPin) 0 Config.params.addrA [] ++
            txnEvents (levelAt s datPin) 1 Config.params.addrB [] ++ [.inp clkPin, .inp datPin]
          pinAnswers := s.pinAnswers.drop 2
          pinReads := s.pinReads + 2 })

/-- 46_sequencer_and_clients.md R182 without a display: four rows sampled, the gate evaluated; family, store,
framebuffer and wires untouched (45_config_fsm.md R176). The order of the steps is the spec's own decision (D18; log
22). -/
def Obligations.CycleWithoutDisplaySamplesFourRows : Prop :=
  ∀ s : State, s.probed = true → s.displayPresent = false → s.owner = .sampler →
    ∃ a b c d y yb : Bool,
      a = rowValue s 0 row1 ∧ b = rowValue s (row2Start s) row2 ∧ c = rowValue s (row3Start s) row3 ∧
      d = rowValue s (rowsEnd s) row4 ∧ (y, yb) = gate s.family [a, b, c, d] ∧
      exec .cycle s = .next
        { s with
          in1 := a
          in2 := b
          in3 := c
          in4 := d
          rowsSet := true
          y := y
          yb := yb
          outPin := #v[y, y, y, yb, yb, yb]
          trace := s.trace ++ rowEvents s 0 row1 ++ rowEvents s (row2Start s) row2 ++
            rowEvents s (row3Start s) row3 ++ rowEvents s (rowsEnd s) row4 ++
            [.out 0 y, .out 1 y, .out 2 y, .out 3 yb, .out 4 yb, .out 5 yb]
          pinAnswers := s.pinAnswers.drop (afterRow s (rowsEnd s) row4)
          pinReads := s.pinReads + afterRow s (rowsEnd s) row4 }

/-- 46_sequencer_and_clients.md R182 with a display: three rows and the button, `in[4]` 0, CSTEP, GEVAL with the
family after it, the diagram drawn on a cleared framebuffer, and its flush as R137's two frames; every event and every
answer used; `res` and the session are untouched. The order of the steps is the spec's own decision (D18), and so are
`in[4]` 0 (D16) and the framing (D8; log 22); the wire events rest on G1 to G3 (log 21). -/
def Obligations.CycleWithDisplayDrawsTheDiagram : Prop :=
  ∀ s : State, s.probed = true → s.displayPresent = true → s.owner = .driver →
    ∃ (a b c : Bool) (f : Family) (y yb : Bool) (drawn : Memory),
      a = rowValue s 0 row1 ∧ b = rowValue s (row2Start s) row2 ∧ c = rowValue s (row3Start s) row3 ∧
      f = (if cycleEdge s then s.family.next else s.family) ∧ (y, yb) = gate f [a, b, c] ∧
      drawn = (Config.params.diagram f a b c y yb).foldl (paintOp Config.params) [] ∧
      exec .cycle s = .next
        { s with
          in1 := a
          in2 := b
          in3 := c
          in4 := false
          rowsSet := true
          prevBtn := cycleButton s
          family := f
          nv := if cycleEdge s then f.code else s.nv
          y := y
          yb := yb
          outPin := #v[y, y, y, yb, yb, yb]
          fb := drawn
          fbCleared := true
          pinMode := wiresSet s.pinMode .pullUp .pullUp
          latchClk := false
          latchDat := false
          trace := s.trace ++ rowEvents s 0 row1 ++ rowEvents s (row2Start s) row2 ++
            rowEvents s (row3Start s) row3 ++ sampleEvents s (rowsEnd s) [buttonPin] ++
            (if cycleEdge s then updateEvents s.nv f.code else []) ++ outEvents y yb ++
            txnEvents (levelAt s datPin) (rowsEnd s + 3) s.dispAddr windowBytes ++
            txnEvents (levelAt s datPin) (rowsEnd s + 3 + (windowBytes.length + 1)) s.dispAddr (dataBytes drawn)
          pinAnswers := s.pinAnswers.drop
            (rowsEnd s + 3 + (windowBytes.length + 1) + ((dataBytes drawn).length + 1))
          pinReads := s.pinReads +
            (rowsEnd s + 3 + (windowBytes.length + 1) + ((dataBytes drawn).length + 1)) }

/-- 20_memory.md R65, 45_config_fsm.md R176: a CYCLE writes the store at most once, and only with a display. -/
def Obligations.CycleWritesTheStoreAtMostOnce : Prop :=
  ∀ s t : State, exec .cycle s = .next t →
    ∃ es, t.trace = s.trace ++ es ∧ rawWrites es ≤ 1 ∧ (s.displayPresent = false → rawWrites es = 0)

/-! ### The whole machine -/

/-- The reset state meets the session invariant. R38 is the spec's own derivation; the canonical form of the
framebuffer is the model's (log 6). -/
def Obligations.SessionInvariantHoldsAtReset : Prop := SessionInv State.reset

/-- 10_state.md R38 (iii), (iv), (vi), R25, R34, 20_memory.md R54, 41_bit_protocol.md R110: every step keeps the
session invariant, from every state that has it. R38 is the spec's own derivation; the canonical form of the
framebuffer is the model's (log 6). -/
def Obligations.SessionInvariantKeptByEveryStep : Prop :=
  ∀ s t : State, SessionInv s → step s = .next t → SessionInv t

/-- 00_scope.md R19, 60_exceptions.md R200: a device that its own sequencer drives is never refused: from every state
between two of its operations, any number of steps completes, whatever the environment answers. What the sequencer
issues is log 1. If CLOAD has run whenever the probe has, as BOOT has it, that stays so. -/
def Obligations.SequencerNeverStops : Prop :=
  ∀ s : State, SequencerReady s → ∀ k : Nat,
    ∃ t, Host.Core.run Sys2Proof.core k s = .next t ∧ SequencerReady t ∧ (LoadedWithProbe s → LoadedWithProbe t)

/-- The reset state is between two of the sequencer's operations, with the probe not run and no raw write of the store
made (70_reset_and_hazards.md R220, 10_state.md R39). That no command is pending at reset is the model's choice
(log 1). -/
def Obligations.ResetIsReadyForTheSequencer : Prop :=
  SequencerReady State.reset ∧ LoadedWithProbe State.reset ∧ State.reset.probed = false ∧ Persisted State.reset

/-- 10_state.md R38 (vii): BOOT and CYCLE keep the stored byte equal to the family in use; a button edge establishes
it; and only a session that began with an invalid byte and has made no raw write is without it. R38 is the spec's own
derivation; what the sequencer issues is log 1. -/
def Obligations.SequencerKeepsTheFamilyPersisted : Prop :=
  ∀ s t : State, s.commands = [] → step s = .next t →
    (Persisted s → Persisted t) ∧
    (s.nv = s.family.code → t.nv = t.family.code) ∧
    (s.probed = true → s.displayPresent = true → cycleEdge s = true →
      t.family = s.family.next ∧ t.nv = t.family.code) ∧
    (s.probed = true → s.displayPresent = false ∨ cycleEdge s = false → t.family = s.family ∧ t.nv = s.nv) ∧
    (s.probed = false → t.nv = s.nv ∧ (s.nv.toNat ≤ 4 → t.nv = t.family.code))

/-- 10_state.md R24, R25, R34: what the probe decided stays for the session. -/
def Obligations.ProbeResultIsFixedForTheSession : Prop :=
  ∀ (i : Instr) (s t : State), s.probed = true → exec i s = .next t →
    t.probed = true ∧ t.displayPresent = s.displayPresent ∧ t.dispAddr = s.dispAddr ∧ t.owner = s.owner

/-- 10_state.md R20, 46_sequencer_and_clients.md R191: each state item is written only by the operations listed beside
it, and by BOOT and CYCLE where they perform one of these. -/
def Obligations.StateItemsAreWrittenByTheirOperations : Prop :=
  ∀ (i : Instr) (s t : State), exec i s = .next t →
    (t.family = s.family ∨ i = .boot ∨ i = .cycle ∨ i = .cload ∨ ∃ b, i = .cstep b) ∧
    ((t.displayPresent = s.displayPresent ∧ t.probed = s.probed ∧ t.dispAddr = s.dispAddr ∧ t.owner = s.owner) ∨
      i = .boot ∨ i = .bprobe) ∧
    (t.prevBtn = s.prevBtn ∨ i = .cycle ∨ ∃ b, i = .cstep b) ∧
    ((t.in1 = s.in1 ∧ t.in2 = s.in2 ∧ t.in3 = s.in3 ∧ t.in4 = s.in4) ∨ i = .cycle) ∧
    ((t.y = s.y ∧ t.yb = s.yb ∧ t.outPin = s.outPin) ∨ i = .cycle ∨ i = .geval) ∧
    (t.fb = s.fb ∨ i = .cycle ∨ i = .dclear ∨ isDrawing i = true) ∧
    ((t.pinMode = s.pinMode ∧ t.latchClk = s.latchClk ∧ t.latchDat = s.latchDat) ∨ i = .boot ∨ i = .cycle ∨
      i = .bstart ∨ i = .bstop ∨ (∃ b, i = .bwrite b) ∨ i = .bprobe ∨ i = .dinit ∨ i = .dflush) ∧
    (t.nv = s.nv ∨ i = .cycle ∨ (∃ b, i = .cstep b) ∨ ∃ v, i = .nvupd v) ∧
    (t.res = s.res ∨ i = .boot ∨ (∃ p, i = .rds p) ∨ (∃ m, i = .ror m) ∨ (∃ b, i = .bwrite b) ∨ i = .bprobe)

/-- 00_scope.md R14: every operation appends to the trace and rewrites none of it. The trace is the spec's own
bookkeeping (D21; log 12). -/
def Obligations.TraceOnlyGrows : Prop :=
  ∀ (i : Instr) (s t : State), exec i s = .next t → ∃ es, t.trace = s.trace ++ es

/-- 10_state.md R38 (v): with a display, both wires are released after BOOT, CYCLE, DINIT, DFLUSH and BSTOP. R38 is
the spec's own derivation. -/
def Obligations.WiresAreIdleBetweenFrames : Prop :=
  ∀ (i : Instr) (s t : State), i = .boot ∨ i = .cycle ∨ i = .dinit ∨ i = .dflush ∨ i = .bstop →
    exec i s = .next t → t.displayPresent = true → WiresIdle t

/-- 46_sequencer_and_clients.md R188: each active input row lights its indicator in one fixed colour, with a display
the row-4 indicator is always off, the family has its own indicator, and DUAL_NOT shows both outputs in the inverted
hue. What an inactive row or a false output shows is not in the source, and no clause says it. The renderer is a view beside the block (log 20). -/
def Obligations.StatusIndicatorsFollowTheMapping : Prop :=
  ∀ s : State,
    (s.in1 = true → (statusView s).row1 = .lit .activeInput) ∧
    (s.in2 = true → (statusView s).row2 = .lit .activeInput) ∧
    (s.in3 = true → (statusView s).row3 = .lit .activeInput) ∧
    (s.displayPresent = true → (statusView s).row4 = .off) ∧
    (s.displayPresent = false → s.in4 = true → (statusView s).row4 = .lit .activeInput) ∧
    (statusView s).status = .lit (.ofFamily s.family) ∧
    (s.y = true → s.family = .dualNot → (statusView s).outY = .lit .invertedHue) ∧
    (s.y = true → s.family ≠ .dualNot → (statusView s).outY = .lit .plainHue) ∧
    (s.yb = true → (statusView s).outYb = .lit .invertedHue)
end

