-- ==== Sys2Proof/Laws/Codec.lean ====
section
/-! SUPPORT. Sys2Proof/Laws/Codec.lean: 16-bit fields there and back, what an operand decoder under a constructor answers,
and what a step does with a command stream. -/

namespace Sys2Proof

/-- A coordinate is its two bytes (30_encoding.md R72). -/
theorem coordOfBytes_bytes (c : Coord) :
    coordOfBytes (BitVec.ofNat 8 (c.toNat / 256)) (BitVec.ofNat 8 c.toNat) = c := by
  apply BitVec.eq_of_toNat_eq
  have := c.isLt
  simp only [coordOfBytes, BitVec.toNat_ofNat]
  omega

/-- The two bytes of a coordinate read from two bytes are those bytes (R72). -/
theorem bytesOfCoord_coord (hi lo : Byte) : bytesOfCoord (coordOfBytes hi lo) = [hi, lo] := by
  have h1 := hi.isLt
  have h2 := lo.isLt
  simp only [bytesOfCoord, coordOfBytes]
  congr 1
  · apply BitVec.eq_of_toNat_eq
    simp only [BitVec.toNat_ofNat]
    omega
  · congr 1
    apply BitVec.eq_of_toNat_eq
    simp only [BitVec.toNat_ofNat]
    omega

/-- What an operand decoder under a constructor answers. -/
theorem Decoded.into_ok {α : Type} {f : α → Instr} {d : Decoded α} {i : Instr} {rest : List Byte}
    (h : d.into f = .ok (i, rest)) : ∃ a, d = .ok (a, rest) ∧ f a = i := by
  cases d with
  | error e => cases h
  | ok p =>
    obtain ⟨a, r⟩ := p
    cases h
    exact ⟨a, rfl, rfl⟩

namespace Machine

/-- A pending command stream is fetched through the decoder. -/
theorem fetch_pending {s : State} (h : s.commands ≠ []) : fetch s = decode s.commands := by
  unfold fetch
  split
  · contradiction
  · rename_i hb
    rw [hb]

/-- A pending stream that begins with no command word is refused (R75). -/
theorem step_undecodable {s : State} {e : DecodeError} (h : s.commands ≠ []) (hd : decode s.commands = .error e) :
    step s = .refused (.undecodable e) := by
  simp only [step, fetch_pending h, hd]

end Machine

end Sys2Proof
end

