-- ==== Sys2Proof/Laws/Memory.lean ====
section
/-! SUPPORT. Sys2Proof/Laws/Memory.lean: the laws of the framebuffer memory: read after write, and that every operation keeps
the canonical form. -/

namespace Sys2Proof.Machine

@[simp] theorem Memory.read_nil (a : Nat) : Memory.read [] a = 0 := rfl

theorem Memory.read_put (m : Memory) (a b : Nat) (v : Byte) :
    (m.put a v).read b = if b = a then v else m.read b := by
  induction m with
  | nil => simp [Memory.put, Memory.read, Memory.blank]
  | cons c rest ih =>
    obtain ⟨d, w⟩ := c
    simp only [Memory.put]
    split
    · simp [Memory.read]
    · split
      · rename_i h
        subst h
        by_cases hb : b = a <;> simp [Memory.read, hb]
      · rename_i h
        by_cases hb : b = d
        · subst hb
          simp [Memory.read, Ne.symm h]
        · simp [Memory.read, hb, ih]

theorem Memory.read_remove (m : Memory) (a b : Nat) :
    (m.remove a).read b = if b = a then 0 else m.read b := by
  induction m with
  | nil => simp [Memory.remove, Memory.read, Memory.blank]
  | cons c rest ih =>
    obtain ⟨d, w⟩ := c
    rw [Memory.remove] at ih ⊢
    by_cases h : d = a
    · subst h
      by_cases hb : b = d
      · subst hb
        simpa using ih
      · simpa [Memory.read, hb] using ih
    · by_cases hb : b = a
      · subst hb
        simpa [Memory.read, h, Ne.symm h] using ih
      · simp only [ne_eq, h, not_false_eq_true, decide_true, List.filter_cons_of_pos, Memory.read, ih, hb, if_false]

/-- Reading after a write: the written byte there, the old byte everywhere else. -/
theorem Memory.read_write (m : Memory) (a b : Nat) (v : Byte) :
    (m.write a v).read b = if b = a then v else m.read b := by
  unfold Memory.write
  split
  · rename_i h
    rw [Memory.read_remove, h]
    rfl
  · exact Memory.read_put m a b v

theorem Memory.wf_iff (m : Memory) :
    m.wf = true ↔ List.Pairwise (fun c d : Host.Cell => c.1 < d.1) m ∧ ∀ c ∈ m, c.1 < 1024 ∧ c.2 ≠ 0 := by
  simp only [Memory.wf, Bool.and_eq_true, decide_eq_true_eq, List.all_eq_true]
  rfl

@[simp] theorem Memory.wf_nil : Memory.wf [] = true := by decide

theorem Memory.mem_put {m : Memory} {a : Nat} {v : Byte} {c : Host.Cell} (h : c ∈ m.put a v) :
    c = (a, v) ∨ c ∈ m := by
  induction m with
  | nil => simpa [Memory.put] using h
  | cons d rest ih =>
    simp only [Memory.put] at h
    split_ifs at h
    · simpa using h
    · rcases List.mem_cons.1 h with rfl | h
      · exact .inl rfl
      · exact .inr (List.mem_cons_of_mem _ h)
    · rcases List.mem_cons.1 h with rfl | h
      · exact .inr List.mem_cons_self
      · exact (ih h).imp id (List.mem_cons_of_mem _)

theorem Memory.wf_put {m : Memory} {a : Nat} {v : Byte} (hm : m.wf = true) (ha : a < 1024) (hv : v ≠ 0) :
    (m.put a v).wf = true := by
  rw [Memory.wf_iff] at hm ⊢
  refine ⟨?_, fun c hc => ?_⟩
  · obtain ⟨hs, -⟩ := hm
    induction m with
    | nil => simp [Memory.put]
    | cons d rest ih =>
      obtain ⟨hd, hs'⟩ := List.pairwise_cons.1 hs
      simp only [Memory.put]
      split_ifs with h1 h2
      · refine List.pairwise_cons.2 ⟨fun c hc => ?_, hs⟩
        rcases List.mem_cons.1 hc with rfl | hc
        · exact h1
        · exact h1.trans (hd c hc)
      · subst h2
        exact List.pairwise_cons.2 ⟨hd, hs'⟩
      · refine List.pairwise_cons.2 ⟨fun c hc => ?_, ih hs'⟩
        rcases Memory.mem_put hc with rfl | hc
        · change d.1 < a
          omega
        · exact hd c hc
  · rcases Memory.mem_put hc with rfl | hc
    · exact ⟨ha, hv⟩
    · exact hm.2 c hc

theorem Memory.wf_remove {m : Memory} {a : Nat} (hm : m.wf = true) : (m.remove a).wf = true := by
  rw [Memory.wf_iff] at hm ⊢
  exact ⟨hm.1.filter _, fun c hc => hm.2 c (List.mem_of_mem_filter hc)⟩

/-- A write inside the framebuffer keeps the canonical form. -/
theorem Memory.wf_write {m : Memory} {a : Nat} {v : Byte} (hm : m.wf = true) (ha : a < 1024) :
    (m.write a v).wf = true := by
  unfold Memory.write
  split
  · exact Memory.wf_remove hm
  · exact Memory.wf_put hm ha (by assumption)

end Sys2Proof.Machine
end

