-- ==== Sys2Proof/Laws/Draw.lean ====
section
/-! SUPPORT. Sys2Proof/Laws/Draw.lean: what `setPixel` and a list of pixels do to the framebuffer, pixel by pixel and byte by
byte, and which pixels a line, a block, a glyph and a string have. -/

namespace Sys2Proof.Machine

theorem onScreen_iff (x y : Int) : onScreen x y = true ↔ 0 ≤ x ∧ x ≤ 127 ∧ 0 ≤ y ∧ y ≤ 63 := by
  simp [onScreen]

/-- The byte index of a pixel on the screen is in the framebuffer (20_memory.md R54). -/
theorem pixelByte_lt {x y : Int} (h : onScreen x y = true) : pixelByte x y < 1024 := by
  rw [onScreen_iff] at h
  unfold pixelByte
  omega

/-- Two pixels on the screen with one byte and one bit are one pixel (R51). -/
theorem pixel_unique {x y u v : Int} (h : onScreen x y = true) (h' : onScreen u v = true)
    (hb : pixelByte x y = pixelByte u v) (hm : y.toNat % 8 = v.toNat % 8) : x = u ∧ y = v := by
  rw [onScreen_iff] at h h'
  unfold pixelByte at hb
  omega

theorem pixelMask_getLsbD (y : Int) (i : Nat) : (pixelMask y).getLsbD i = decide (i = y.toNat % 8) := by
  have h8 : y.toNat % 8 < 8 := Nat.mod_lt _ (by decide)
  simp only [pixelMask, BitVec.getLsbD_shiftLeft]
  by_cases h : i = y.toNat % 8
  · subst h; simp [h8]
  · simp only [h, decide_false]
    by_cases hi : i < y.toNat % 8
    · simp [hi]
    · have : i - y.toNat % 8 ≠ 0 := by omega
      simp [this]

/-- Clearing a pixel's bit of a byte leaves the other seven (R133). -/
theorem getLsbD_clearBit (b : Byte) (y : Int) {i : Nat} (hi : i < 8) :
    (b &&& (0xFF ^^^ pixelMask y)).getLsbD i = (b.getLsbD i && !decide (i = y.toNat % 8)) := by
  have ones : (0xFF : Byte).getLsbD i = true := by
    interval_cases i <;> rfl
  rw [BitVec.getLsbD_and, BitVec.getLsbD_xor, pixelMask_getLsbD, ones, Bool.true_xor]

/-- The bytes a `setPixel` leaves. -/
theorem read_setPixel_other {m : Memory} {x y : Int} {on : Bool} {a : Nat}
    (h : onScreen x y = true → a ≠ pixelByte x y) : (setPixel x y on m).read a = m.read a := by
  unfold setPixel
  split
  · rename_i hs
    rw [Memory.read_write, if_neg (h hs)]
  · rfl

/-- `setPixel` sets its own pixel if it is on the screen, and no other (R133). -/
theorem pixelAt_setPixel (m : Memory) (x y u v : Int) (on : Bool) :
    pixelAt (setPixel x y on m) u v = if onScreen u v ∧ u = x ∧ v = y then on else pixelAt m u v := by
  by_cases hu : onScreen u v = true
  swap
  · simp [pixelAt, hu]
  simp only [pixelAt, hu, Bool.true_and, true_and]
  by_cases hs : onScreen x y = true
  swap
  · have : ¬(u = x ∧ v = y) := by rintro ⟨rfl, rfl⟩; exact hs hu
    simp [setPixel, hs, this]
  have h8 : v.toNat % 8 < 8 := Nat.mod_lt _ (by decide)
  rw [setPixel, if_pos hs, Memory.read_write]
  by_cases hb : pixelByte u v = pixelByte x y
  · rw [if_pos hb, hb]
    by_cases hm : v.toNat % 8 = y.toNat % 8
    · obtain ⟨rfl, rfl⟩ := pixel_unique hu hs hb hm
      cases on
      · simp only [if_false, Bool.false_eq_true, getLsbD_clearBit _ _ h8]
        simp
      · simp [BitVec.getLsbD_or, pixelMask_getLsbD]
    · have hne : ¬(u = x ∧ v = y) := by rintro ⟨rfl, rfl⟩; exact hm rfl
      rw [if_neg hne]
      cases on
      · simp only [if_false, Bool.false_eq_true, getLsbD_clearBit _ _ h8]
        simp [hm]
      · simp [BitVec.getLsbD_or, pixelMask_getLsbD, hm]
  · have hne : ¬(u = x ∧ v = y) := by rintro ⟨rfl, rfl⟩; exact hb rfl
    rw [if_neg hb, if_neg hne]

theorem paint_cons (p : Int × Int) (ps : List (Int × Int)) (on : Bool) (m : Memory) :
    paint (p :: ps) on m = paint ps on (setPixel p.1 p.2 on m) := rfl

/-- Painting a list of pixels sets those on the screen, and no other. -/
theorem pixelAt_paint (ps : List (Int × Int)) (on : Bool) (m : Memory) (u v : Int) :
    pixelAt (paint ps on m) u v = if onScreen u v ∧ (u, v) ∈ ps then on else pixelAt m u v := by
  induction ps generalizing m with
  | nil => simp [paint]
  | cons p ps ih =>
    rw [paint_cons, ih, pixelAt_setPixel]
    by_cases hu : onScreen u v = true <;> by_cases h1 : (u, v) ∈ ps <;> by_cases h2 : u = p.1 ∧ v = p.2 <;>
      simp_all [Prod.ext_iff]

/-- Turning a list of pixels on: a pixel is on after it if it was on or is one of them, on the screen. -/
theorem pixelAt_paint_on (ps : List (Int × Int)) (m : Memory) (u v : Int) :
    pixelAt (paint ps true m) u v = true ↔ pixelAt m u v = true ∨ (onScreen u v = true ∧ (u, v) ∈ ps) := by
  rw [pixelAt_paint]
  split
  · rename_i h
    simp [h]
  · rename_i h
    simp [h]

/-- The bytes a list of pixels leaves: every byte that holds none of its pixels on the screen. -/
theorem read_paint_other {ps : List (Int × Int)} {on : Bool} {m : Memory} {a : Nat}
    (h : ∀ p ∈ ps, onScreen p.1 p.2 = true → a ≠ pixelByte p.1 p.2) :
    (paint ps on m).read a = m.read a := by
  induction ps generalizing m with
  | nil => rfl
  | cons p ps ih =>
    rw [paint_cons, ih fun q hq => h q (List.mem_cons_of_mem _ hq)]
    exact read_setPixel_other (h p List.mem_cons_self)

theorem wf_setPixel {m : Memory} {x y : Int} {on : Bool} (hm : m.wf = true) : (setPixel x y on m).wf = true := by
  unfold setPixel
  split
  · exact Memory.wf_write hm (pixelByte_lt (by assumption))
  · exact hm

/-- Painting keeps the canonical form. -/
theorem wf_paint {ps : List (Int × Int)} {on : Bool} {m : Memory} (hm : m.wf = true) :
    (paint ps on m).wf = true := by
  induction ps generalizing m with
  | nil => exact hm
  | cons p ps ih => exact ih (wf_setPixel hm)

/-- Clearing leaves the canonical form (R132). -/
theorem wf_clearFrame (s : State) : (clearFrame s).fb.wf = true := Memory.wf_nil

/-- The framebuffer of the reset state is in canonical form. -/
theorem wf_reset : State.reset.fb.wf = true := Memory.wf_nil

/-- A drawing operation either paints the framebuffer and changes nothing else, or is refused because it would read an
unwritten byte. -/
theorem draw_cases (ps : List (Int × Int)) (on : Bool) (s : State) :
    (draw ps on s = .next { s with fb := paint ps on s.fb } ∧
      (s.fbCleared = true ∨ ∀ p ∈ ps, onScreen p.1 p.2 = false)) ∨
    (draw ps on s = .refused .framebufferUnwritten ∧ s.fbCleared = false ∧ ∃ p ∈ ps, onScreen p.1 p.2 = true) := by
  unfold draw
  split
  · rename_i h
    simp only [Bool.and_eq_true, Bool.not_eq_true', List.any_eq_true] at h
    exact .inr ⟨rfl, h⟩
  · rename_i h
    refine .inl ⟨rfl, ?_⟩
    cases hc : s.fbCleared
    · right
      intro p hp
      by_contra hs
      exact h (by simp [hc]; exact ⟨p.1, p.2, hp, by simpa using hs⟩)
    · exact .inl rfl

/-- With a cleared framebuffer a drawing operation completes. -/
theorem draw_next (ps : List (Int × Int)) (on : Bool) (s : State) (h : s.fbCleared = true) :
    draw ps on s = .next { s with fb := paint ps on s.fb } := by
  simp [draw, h]

/-! ### Which pixels -/

theorem mem_intRange (lo hi i : Int) : i ∈ intRange lo hi ↔ lo ≤ i ∧ i ≤ hi := by
  simp only [intRange, List.mem_map, List.mem_range]
  constructor
  · rintro ⟨n, hn, rfl⟩
    omega
  · rintro ⟨h1, h2⟩
    exact ⟨(i - lo).toNat, by omega, by omega⟩

/-- The pixels of DHLINE (R134). -/
theorem mem_hlinePixels (x0 x1 y u v : Int) :
    (u, v) ∈ hlinePixels x0 x1 y ↔ v = y ∧ min x0 x1 ≤ u ∧ u ≤ max x0 x1 := by
  simp only [hlinePixels, List.mem_map, mem_intRange, Prod.mk.injEq]
  constructor
  · rintro ⟨i, hi, rfl, rfl⟩
    exact ⟨rfl, hi⟩
  · rintro ⟨rfl, hi⟩
    exact ⟨u, hi, rfl, rfl⟩

/-- The pixels of DVLINE (R135). -/
theorem mem_vlinePixels (x y0 y1 u v : Int) :
    (u, v) ∈ vlinePixels x y0 y1 ↔ u = x ∧ min y0 y1 ≤ v ∧ v ≤ max y0 y1 := by
  simp only [vlinePixels, List.mem_map, mem_intRange, Prod.mk.injEq]
  constructor
  · rintro ⟨i, hi, rfl, rfl⟩
    exact ⟨rfl, hi⟩
  · rintro ⟨rfl, hi⟩
    exact ⟨v, hi, rfl, rfl⟩

/-- The pixels of a block (R152). -/
theorem mem_block (x y : Int) (k : Nat) (u v : Int) :
    (u, v) ∈ block x y k ↔ (x ≤ u ∧ u < x + k) ∧ y ≤ v ∧ v < y + k := by
  simp only [block, List.mem_flatMap, List.mem_map, List.mem_range, Prod.mk.injEq]
  constructor
  · rintro ⟨i, hi, j, hj, rfl, rfl⟩
    omega
  · rintro ⟨h1, h2⟩
    exact ⟨(u - x).toNat, by omega, (v - y).toNat, by omega, by omega, by omega⟩

/-- The pixels of a glyph: those in the block of a lit bit (R152). -/
theorem mem_glyphPixels (g : Vector Byte 5) (x y : Int) (k : Nat) (u v : Int) :
    (u, v) ∈ glyphPixels g x y k ↔
      ∃ col : Fin 5, ∃ row < 7, g[col].getLsbD row = true ∧
        (x + (col.val * k : Nat) ≤ u ∧ u < x + (col.val * k : Nat) + k) ∧
        y + (row * k : Nat) ≤ v ∧ v < y + (row * k : Nat) + k := by
  simp only [glyphPixels, List.mem_flatMap, List.mem_finRange, List.mem_range, true_and]
  refine exists_congr fun col => exists_congr fun row => and_congr_right fun _ => ?_
  by_cases h : g[col].getLsbD row = true
  · rw [if_pos h, mem_block]
    exact (and_iff_right h).symm
  · rw [if_neg h]
    exact ⟨fun hm => absurd hm List.not_mem_nil, fun hm => absurd hm.1 h⟩

/-- The pixels of a string: those of its i-th character, drawn at the i-th cursor position (R153). -/
theorem mem_textPixels (P : Params) (cx y : Int) (k : Nat) (str : List Byte) (q : Int × Int) :
    q ∈ textPixels P cx y k str ↔
      ∃ i, ∃ h : i < str.length, q ∈ charPixels P (cx + (i * (P.glyphAdvance * k) : Nat)) y k str[i] := by
  induction str generalizing cx with
  | nil => simp [textPixels]
  | cons c cs ih =>
    have cursor (i : Nat) : cx + ((i + 1) * (P.glyphAdvance * k) : Nat) =
        cx + (P.glyphAdvance * k : Nat) + (i * (P.glyphAdvance * k) : Nat) := by
      push_cast
      ring
    rw [textPixels, List.mem_append, ih]
    constructor
    · rintro (h | ⟨i, hi, h⟩)
      · exact ⟨0, by simp, by simpa using h⟩
      · refine ⟨i + 1, by simpa using hi, ?_⟩
        rwa [cursor, List.getElem_cons_succ]
    · rintro ⟨i, hi, h⟩
      cases i with
      | zero => exact .inl (by simpa using h)
      | succ i =>
        refine .inr ⟨i, by simpa using hi, ?_⟩
        rwa [cursor, List.getElem_cons_succ] at h

/-! ### Characters -/

/-- The linear lookup finds the first entry of the font for the character (30_encoding.md R89). -/
theorem lookup_eq (f : List FontEntry) (c : Byte) : lookup f c = (fontEntry f c).map (·.columns) := by
  induction f with
  | nil => rfl
  | cons e es ih =>
    simp only [lookup, fontEntry, List.find?_cons] at ih ⊢
    by_cases h : e.code = c <;> simp [h, ih]

/-- The pixels of a character are those it covers (R152). -/
theorem mem_charPixels (P : Params) (x y : Int) (k : Nat) (c : Byte) (u v : Int) :
    (u, v) ∈ charPixels P x y k c ↔ CharCovers P x y k c u v := by
  unfold charPixels CharCovers
  rw [lookup_eq]
  cases h : fontEntry P.font c with
  | none => simp
  | some e =>
    simp only [Option.map_some, mem_glyphPixels, GlyphCovers, Option.some.injEq, exists_eq_left']
    refine exists_congr fun col => exists_congr fun row => and_congr_right fun _ => and_congr_right fun _ => ?_
    push_cast
    constructor
    · rintro ⟨⟨h1, h2⟩, h3, h4⟩
      refine ⟨h1, ?_, h3, ?_⟩ <;> linarith
    · rintro ⟨h1, h2, h3, h4⟩
      refine ⟨⟨h1, ?_⟩, h3, ?_⟩ <;> linarith

/-- The pixels of a string are those its characters cover (R153). -/
theorem mem_textPixels_iff (P : Params) (x y : Int) (k : Nat) (str : List Byte) (u v : Int) :
    (u, v) ∈ textPixels P x y k str ↔ TextCovers P x y k str u v := by
  rw [mem_textPixels]
  simp only [mem_charPixels]
  rfl

/-! ### Before the first clear -/

/-- Pixels off the screen change nothing (20_memory.md R54). -/
theorem paint_offScreen {ps : List (Int × Int)} (on : Bool) (m : Memory)
    (h : ∀ p ∈ ps, onScreen p.1 p.2 = false) : paint ps on m = m := by
  induction ps generalizing m with
  | nil => rfl
  | cons p ps ih =>
    rw [paint_cons, ih _ fun q hq => h q (List.mem_cons_of_mem _ hq)]
    simp [setPixel, h p List.mem_cons_self]

/-- A drawing operation that touches no pixel of the screen completes and changes nothing. -/
theorem draw_offScreen {ps : List (Int × Int)} (on : Bool) (s : State)
    (h : ∀ p ∈ ps, onScreen p.1 p.2 = false) : draw ps on s = .next s := by
  unfold draw
  rw [if_neg]
  · rw [paint_offScreen on _ h]
  · simp only [Bool.and_eq_true, List.any_eq_true, not_and, not_exists]
    intro _ p hp hs
    rw [h p hp] at hs
    exact absurd hs (by simp)

/-- A drawing operation that touches the screen before the first DCLEAR is refused (R223). -/
theorem draw_unwritten {ps : List (Int × Int)} (on : Bool) {s : State} (hc : s.fbCleared = false)
    (h : ∃ p ∈ ps, onScreen p.1 p.2 = true) : draw ps on s = .refused .framebufferUnwritten := by
  unfold draw
  rw [if_pos]
  simpa [hc] using h

end Sys2Proof.Machine
end

