-- ==== Sys2Proof/Laws/PerInstr.lean ====
section
/-! SUPPORT. Sys2Proof/Laws/PerInstr.lean: one fact per instruction as syntax. `EncodedForm`: the command word of every
instruction is its operation code and as many operand bytes as its format has (30_encoding.md R73, R76). -/

namespace Sys2Proof.Laws

/-- How many operand bytes the format of an instruction has (R73; format T by R76). -/
def operandCount : Instr → Nat
  | .boot => 0
  | .cycle => 0
  | .rds _ => 1
  | .ror _ => 2
  | .bstart => 0
  | .bstop => 0
  | .bwrite _ => 1
  | .bprobe => 0
  | .dinit => 0
  | .dclear => 0
  | .dsetpix _ _ _ => 5
  | .dhline _ _ _ => 6
  | .dvline _ _ _ => 6
  | .dflush => 0
  | .dchar _ _ _ _ => 6
  | .dtext _ _ _ str => 6 + str.length
  | .geval => 0
  | .cload => 0
  | .cstep _ => 1
  | .nvupd _ => 1

/-- The operation code leads, and the operand bytes are as many as the format says. -/
def EncodedForm.Statement (i : Instr) : Prop :=
  (encode i).head? = some i.opcode ∧ (encode i).length = 1 + operandCount i

/-- Format Z, no operand (R73). -/
theorem EncodedForm.boot : EncodedForm.Statement .boot := ⟨rfl, rfl⟩

/-- Format Z, no operand (R73). -/
theorem EncodedForm.cycle : EncodedForm.Statement .cycle := ⟨rfl, rfl⟩

/-- Format P, one byte (R73). -/
theorem EncodedForm.rds (p : InPin) : EncodedForm.Statement (.rds p) := ⟨rfl, rfl⟩

/-- Format M, two bytes (R73). -/
theorem EncodedForm.ror (m : BitVec 10) : EncodedForm.Statement (.ror m) := ⟨rfl, rfl⟩

/-- Format Z, no operand (R73). -/
theorem EncodedForm.bstart : EncodedForm.Statement .bstart := ⟨rfl, rfl⟩

/-- Format Z, no operand (R73). -/
theorem EncodedForm.bstop : EncodedForm.Statement .bstop := ⟨rfl, rfl⟩

/-- Format B, one byte (R73). -/
theorem EncodedForm.bwrite (b : Byte) : EncodedForm.Statement (.bwrite b) := ⟨rfl, rfl⟩

/-- Format Z, no operand (R73). -/
theorem EncodedForm.bprobe : EncodedForm.Statement .bprobe := ⟨rfl, rfl⟩

/-- Format Z, no operand (R73). -/
theorem EncodedForm.dinit : EncodedForm.Statement .dinit := ⟨rfl, rfl⟩

/-- Format Z, no operand (R73). -/
theorem EncodedForm.dclear : EncodedForm.Statement .dclear := ⟨rfl, rfl⟩

/-- Format XY, five bytes (R73). -/
theorem EncodedForm.dsetpix (x y : Coord) (on : Bool) : EncodedForm.Statement (.dsetpix x y on) := ⟨rfl, rfl⟩

/-- Format L, six bytes (R73). -/
theorem EncodedForm.dhline (x0 x1 y : Coord) : EncodedForm.Statement (.dhline x0 x1 y) := ⟨rfl, rfl⟩

/-- Format L, six bytes (R73). -/
theorem EncodedForm.dvline (x y0 y1 : Coord) : EncodedForm.Statement (.dvline x y0 y1) := ⟨rfl, rfl⟩

/-- Format Z, no operand (R73). -/
theorem EncodedForm.dflush : EncodedForm.Statement .dflush := ⟨rfl, rfl⟩

/-- Format C, six bytes (R73). -/
theorem EncodedForm.dchar (x y : Coord) (k c : Byte) : EncodedForm.Statement (.dchar x y k c) := ⟨rfl, rfl⟩

/-- Format T, six bytes and its characters (R73). -/
theorem EncodedForm.dtext (x y : Coord) (k : Byte) (str : List Byte) : EncodedForm.Statement (.dtext x y k str) :=
  ⟨rfl, by simp [encode, Instr.operandBytes, bytesOfCoord, operandCount]; omega⟩

/-- Format Z, no operand (R73). -/
theorem EncodedForm.geval : EncodedForm.Statement .geval := ⟨rfl, rfl⟩

/-- Format Z, no operand (R73). -/
theorem EncodedForm.cload : EncodedForm.Statement .cload := ⟨rfl, rfl⟩

/-- Format V, one byte (R73). -/
theorem EncodedForm.cstep (b : Bool) : EncodedForm.Statement (.cstep b) := ⟨rfl, rfl⟩

/-- Format B, one byte (R73). -/
theorem EncodedForm.nvupd (v : Byte) : EncodedForm.Statement (.nvupd v) := ⟨rfl, rfl⟩

end Sys2Proof.Laws
end

