-- ==== Sys2Proof/Laws/State.lean ====
section
/-! SUPPORT. Sys2Proof/Laws/State.lean: one lemma per field per primitive update of the state, true by rfl, so that no proof
unfolds a record update. Written by a table: the fields an update changes first, then the ones it leaves. -/

namespace Sys2Proof.Machine

/-- A delay changes nothing (R12). -/
@[simp] theorem delay_eq (t : Nat) (s : State) : delay t s = s := rfl

/-- Noting a condition changes nothing (R13). -/
@[simp] theorem note_eq (c : Condition) (s : State) : note c s = s := rfl

/-! ### emit -/

@[simp] theorem emit_trace (e : Event) (s : State) : (emit e s).trace = s.trace ++ [e] := rfl
@[simp] theorem emit_family (e : Event) (s : State) : (emit e s).family = s.family := rfl
@[simp] theorem emit_familySet (e : Event) (s : State) : (emit e s).familySet = s.familySet := rfl
@[simp] theorem emit_displayPresent (e : Event) (s : State) : (emit e s).displayPresent = s.displayPresent := rfl
@[simp] theorem emit_probed (e : Event) (s : State) : (emit e s).probed = s.probed := rfl
@[simp] theorem emit_dispAddr (e : Event) (s : State) : (emit e s).dispAddr = s.dispAddr := rfl
@[simp] theorem emit_prevBtn (e : Event) (s : State) : (emit e s).prevBtn = s.prevBtn := rfl
@[simp] theorem emit_in1 (e : Event) (s : State) : (emit e s).in1 = s.in1 := rfl
@[simp] theorem emit_in2 (e : Event) (s : State) : (emit e s).in2 = s.in2 := rfl
@[simp] theorem emit_in3 (e : Event) (s : State) : (emit e s).in3 = s.in3 := rfl
@[simp] theorem emit_in4 (e : Event) (s : State) : (emit e s).in4 = s.in4 := rfl
@[simp] theorem emit_rowsSet (e : Event) (s : State) : (emit e s).rowsSet = s.rowsSet := rfl
@[simp] theorem emit_y (e : Event) (s : State) : (emit e s).y = s.y := rfl
@[simp] theorem emit_yb (e : Event) (s : State) : (emit e s).yb = s.yb := rfl
@[simp] theorem emit_fb (e : Event) (s : State) : (emit e s).fb = s.fb := rfl
@[simp] theorem emit_fbCleared (e : Event) (s : State) : (emit e s).fbCleared = s.fbCleared := rfl
@[simp] theorem emit_pinMode (e : Event) (s : State) : (emit e s).pinMode = s.pinMode := rfl
@[simp] theorem emit_latchClk (e : Event) (s : State) : (emit e s).latchClk = s.latchClk := rfl
@[simp] theorem emit_latchDat (e : Event) (s : State) : (emit e s).latchDat = s.latchDat := rfl
@[simp] theorem emit_outPin (e : Event) (s : State) : (emit e s).outPin = s.outPin := rfl
@[simp] theorem emit_nv (e : Event) (s : State) : (emit e s).nv = s.nv := rfl
@[simp] theorem emit_res (e : Event) (s : State) : (emit e s).res = s.res := rfl
@[simp] theorem emit_owner (e : Event) (s : State) : (emit e s).owner = s.owner := rfl
@[simp] theorem emit_commands (e : Event) (s : State) : (emit e s).commands = s.commands := rfl
@[simp] theorem emit_pinAnswers (e : Event) (s : State) : (emit e s).pinAnswers = s.pinAnswers := rfl
@[simp] theorem emit_pinReads (e : Event) (s : State) : (emit e s).pinReads = s.pinReads := rfl

/-! ### setPinMode -/

@[simp] theorem setPinMode_pinMode (p : InPin) (m : PinMode) (s : State) : (setPinMode p m s).pinMode = s.pinMode.set p.val m p.isLt := rfl
@[simp] theorem setPinMode_family (p : InPin) (m : PinMode) (s : State) : (setPinMode p m s).family = s.family := rfl
@[simp] theorem setPinMode_familySet (p : InPin) (m : PinMode) (s : State) : (setPinMode p m s).familySet = s.familySet := rfl
@[simp] theorem setPinMode_displayPresent (p : InPin) (m : PinMode) (s : State) : (setPinMode p m s).displayPresent = s.displayPresent := rfl
@[simp] theorem setPinMode_probed (p : InPin) (m : PinMode) (s : State) : (setPinMode p m s).probed = s.probed := rfl
@[simp] theorem setPinMode_dispAddr (p : InPin) (m : PinMode) (s : State) : (setPinMode p m s).dispAddr = s.dispAddr := rfl
@[simp] theorem setPinMode_prevBtn (p : InPin) (m : PinMode) (s : State) : (setPinMode p m s).prevBtn = s.prevBtn := rfl
@[simp] theorem setPinMode_in1 (p : InPin) (m : PinMode) (s : State) : (setPinMode p m s).in1 = s.in1 := rfl
@[simp] theorem setPinMode_in2 (p : InPin) (m : PinMode) (s : State) : (setPinMode p m s).in2 = s.in2 := rfl
@[simp] theorem setPinMode_in3 (p : InPin) (m : PinMode) (s : State) : (setPinMode p m s).in3 = s.in3 := rfl
@[simp] theorem setPinMode_in4 (p : InPin) (m : PinMode) (s : State) : (setPinMode p m s).in4 = s.in4 := rfl
@[simp] theorem setPinMode_rowsSet (p : InPin) (m : PinMode) (s : State) : (setPinMode p m s).rowsSet = s.rowsSet := rfl
@[simp] theorem setPinMode_y (p : InPin) (m : PinMode) (s : State) : (setPinMode p m s).y = s.y := rfl
@[simp] theorem setPinMode_yb (p : InPin) (m : PinMode) (s : State) : (setPinMode p m s).yb = s.yb := rfl
@[simp] theorem setPinMode_fb (p : InPin) (m : PinMode) (s : State) : (setPinMode p m s).fb = s.fb := rfl
@[simp] theorem setPinMode_fbCleared (p : InPin) (m : PinMode) (s : State) : (setPinMode p m s).fbCleared = s.fbCleared := rfl
@[simp] theorem setPinMode_latchClk (p : InPin) (m : PinMode) (s : State) : (setPinMode p m s).latchClk = s.latchClk := rfl
@[simp] theorem setPinMode_latchDat (p : InPin) (m : PinMode) (s : State) : (setPinMode p m s).latchDat = s.latchDat := rfl
@[simp] theorem setPinMode_outPin (p : InPin) (m : PinMode) (s : State) : (setPinMode p m s).outPin = s.outPin := rfl
@[simp] theorem setPinMode_nv (p : InPin) (m : PinMode) (s : State) : (setPinMode p m s).nv = s.nv := rfl
@[simp] theorem setPinMode_res (p : InPin) (m : PinMode) (s : State) : (setPinMode p m s).res = s.res := rfl
@[simp] theorem setPinMode_owner (p : InPin) (m : PinMode) (s : State) : (setPinMode p m s).owner = s.owner := rfl
@[simp] theorem setPinMode_trace (p : InPin) (m : PinMode) (s : State) : (setPinMode p m s).trace = s.trace := rfl
@[simp] theorem setPinMode_commands (p : InPin) (m : PinMode) (s : State) : (setPinMode p m s).commands = s.commands := rfl
@[simp] theorem setPinMode_pinAnswers (p : InPin) (m : PinMode) (s : State) : (setPinMode p m s).pinAnswers = s.pinAnswers := rfl
@[simp] theorem setPinMode_pinReads (p : InPin) (m : PinMode) (s : State) : (setPinMode p m s).pinReads = s.pinReads := rfl

/-! ### pinWrite_clk -/

@[simp] theorem pinWrite_clk_latchClk (v : Bool) (s : State) : (pinWrite .clk v s).latchClk = v := rfl
@[simp] theorem pinWrite_clk_family (v : Bool) (s : State) : (pinWrite .clk v s).family = s.family := rfl
@[simp] theorem pinWrite_clk_familySet (v : Bool) (s : State) : (pinWrite .clk v s).familySet = s.familySet := rfl
@[simp] theorem pinWrite_clk_displayPresent (v : Bool) (s : State) : (pinWrite .clk v s).displayPresent = s.displayPresent := rfl
@[simp] theorem pinWrite_clk_probed (v : Bool) (s : State) : (pinWrite .clk v s).probed = s.probed := rfl
@[simp] theorem pinWrite_clk_dispAddr (v : Bool) (s : State) : (pinWrite .clk v s).dispAddr = s.dispAddr := rfl
@[simp] theorem pinWrite_clk_prevBtn (v : Bool) (s : State) : (pinWrite .clk v s).prevBtn = s.prevBtn := rfl
@[simp] theorem pinWrite_clk_in1 (v : Bool) (s : State) : (pinWrite .clk v s).in1 = s.in1 := rfl
@[simp] theorem pinWrite_clk_in2 (v : Bool) (s : State) : (pinWrite .clk v s).in2 = s.in2 := rfl
@[simp] theorem pinWrite_clk_in3 (v : Bool) (s : State) : (pinWrite .clk v s).in3 = s.in3 := rfl
@[simp] theorem pinWrite_clk_in4 (v : Bool) (s : State) : (pinWrite .clk v s).in4 = s.in4 := rfl
@[simp] theorem pinWrite_clk_rowsSet (v : Bool) (s : State) : (pinWrite .clk v s).rowsSet = s.rowsSet := rfl
@[simp] theorem pinWrite_clk_y (v : Bool) (s : State) : (pinWrite .clk v s).y = s.y := rfl
@[simp] theorem pinWrite_clk_yb (v : Bool) (s : State) : (pinWrite .clk v s).yb = s.yb := rfl
@[simp] theorem pinWrite_clk_fb (v : Bool) (s : State) : (pinWrite .clk v s).fb = s.fb := rfl
@[simp] theorem pinWrite_clk_fbCleared (v : Bool) (s : State) : (pinWrite .clk v s).fbCleared = s.fbCleared := rfl
@[simp] theorem pinWrite_clk_pinMode (v : Bool) (s : State) : (pinWrite .clk v s).pinMode = s.pinMode := rfl
@[simp] theorem pinWrite_clk_latchDat (v : Bool) (s : State) : (pinWrite .clk v s).latchDat = s.latchDat := rfl
@[simp] theorem pinWrite_clk_outPin (v : Bool) (s : State) : (pinWrite .clk v s).outPin = s.outPin := rfl
@[simp] theorem pinWrite_clk_nv (v : Bool) (s : State) : (pinWrite .clk v s).nv = s.nv := rfl
@[simp] theorem pinWrite_clk_res (v : Bool) (s : State) : (pinWrite .clk v s).res = s.res := rfl
@[simp] theorem pinWrite_clk_owner (v : Bool) (s : State) : (pinWrite .clk v s).owner = s.owner := rfl
@[simp] theorem pinWrite_clk_trace (v : Bool) (s : State) : (pinWrite .clk v s).trace = s.trace := rfl
@[simp] theorem pinWrite_clk_commands (v : Bool) (s : State) : (pinWrite .clk v s).commands = s.commands := rfl
@[simp] theorem pinWrite_clk_pinAnswers (v : Bool) (s : State) : (pinWrite .clk v s).pinAnswers = s.pinAnswers := rfl
@[simp] theorem pinWrite_clk_pinReads (v : Bool) (s : State) : (pinWrite .clk v s).pinReads = s.pinReads := rfl

/-! ### pinWrite_dat -/

@[simp] theorem pinWrite_dat_latchDat (v : Bool) (s : State) : (pinWrite .dat v s).latchDat = v := rfl
@[simp] theorem pinWrite_dat_family (v : Bool) (s : State) : (pinWrite .dat v s).family = s.family := rfl
@[simp] theorem pinWrite_dat_familySet (v : Bool) (s : State) : (pinWrite .dat v s).familySet = s.familySet := rfl
@[simp] theorem pinWrite_dat_displayPresent (v : Bool) (s : State) : (pinWrite .dat v s).displayPresent = s.displayPresent := rfl
@[simp] theorem pinWrite_dat_probed (v : Bool) (s : State) : (pinWrite .dat v s).probed = s.probed := rfl
@[simp] theorem pinWrite_dat_dispAddr (v : Bool) (s : State) : (pinWrite .dat v s).dispAddr = s.dispAddr := rfl
@[simp] theorem pinWrite_dat_prevBtn (v : Bool) (s : State) : (pinWrite .dat v s).prevBtn = s.prevBtn := rfl
@[simp] theorem pinWrite_dat_in1 (v : Bool) (s : State) : (pinWrite .dat v s).in1 = s.in1 := rfl
@[simp] theorem pinWrite_dat_in2 (v : Bool) (s : State) : (pinWrite .dat v s).in2 = s.in2 := rfl
@[simp] theorem pinWrite_dat_in3 (v : Bool) (s : State) : (pinWrite .dat v s).in3 = s.in3 := rfl
@[simp] theorem pinWrite_dat_in4 (v : Bool) (s : State) : (pinWrite .dat v s).in4 = s.in4 := rfl
@[simp] theorem pinWrite_dat_rowsSet (v : Bool) (s : State) : (pinWrite .dat v s).rowsSet = s.rowsSet := rfl
@[simp] theorem pinWrite_dat_y (v : Bool) (s : State) : (pinWrite .dat v s).y = s.y := rfl
@[simp] theorem pinWrite_dat_yb (v : Bool) (s : State) : (pinWrite .dat v s).yb = s.yb := rfl
@[simp] theorem pinWrite_dat_fb (v : Bool) (s : State) : (pinWrite .dat v s).fb = s.fb := rfl
@[simp] theorem pinWrite_dat_fbCleared (v : Bool) (s : State) : (pinWrite .dat v s).fbCleared = s.fbCleared := rfl
@[simp] theorem pinWrite_dat_pinMode (v : Bool) (s : State) : (pinWrite .dat v s).pinMode = s.pinMode := rfl
@[simp] theorem pinWrite_dat_latchClk (v : Bool) (s : State) : (pinWrite .dat v s).latchClk = s.latchClk := rfl
@[simp] theorem pinWrite_dat_outPin (v : Bool) (s : State) : (pinWrite .dat v s).outPin = s.outPin := rfl
@[simp] theorem pinWrite_dat_nv (v : Bool) (s : State) : (pinWrite .dat v s).nv = s.nv := rfl
@[simp] theorem pinWrite_dat_res (v : Bool) (s : State) : (pinWrite .dat v s).res = s.res := rfl
@[simp] theorem pinWrite_dat_owner (v : Bool) (s : State) : (pinWrite .dat v s).owner = s.owner := rfl
@[simp] theorem pinWrite_dat_trace (v : Bool) (s : State) : (pinWrite .dat v s).trace = s.trace := rfl
@[simp] theorem pinWrite_dat_commands (v : Bool) (s : State) : (pinWrite .dat v s).commands = s.commands := rfl
@[simp] theorem pinWrite_dat_pinAnswers (v : Bool) (s : State) : (pinWrite .dat v s).pinAnswers = s.pinAnswers := rfl
@[simp] theorem pinWrite_dat_pinReads (v : Bool) (s : State) : (pinWrite .dat v s).pinReads = s.pinReads := rfl

/-! ### pinRead -/

@[simp] theorem pinRead_trace (p : InPin) (s : State) : (pinRead p s).2.trace = s.trace ++ [.rd p (nextLevel p s)] := rfl
@[simp] theorem pinRead_pinAnswers (p : InPin) (s : State) : (pinRead p s).2.pinAnswers = s.pinAnswers.tail := rfl
@[simp] theorem pinRead_pinReads (p : InPin) (s : State) : (pinRead p s).2.pinReads = s.pinReads + 1 := rfl
@[simp] theorem pinRead_family (p : InPin) (s : State) : (pinRead p s).2.family = s.family := rfl
@[simp] theorem pinRead_familySet (p : InPin) (s : State) : (pinRead p s).2.familySet = s.familySet := rfl
@[simp] theorem pinRead_displayPresent (p : InPin) (s : State) : (pinRead p s).2.displayPresent = s.displayPresent := rfl
@[simp] theorem pinRead_probed (p : InPin) (s : State) : (pinRead p s).2.probed = s.probed := rfl
@[simp] theorem pinRead_dispAddr (p : InPin) (s : State) : (pinRead p s).2.dispAddr = s.dispAddr := rfl
@[simp] theorem pinRead_prevBtn (p : InPin) (s : State) : (pinRead p s).2.prevBtn = s.prevBtn := rfl
@[simp] theorem pinRead_in1 (p : InPin) (s : State) : (pinRead p s).2.in1 = s.in1 := rfl
@[simp] theorem pinRead_in2 (p : InPin) (s : State) : (pinRead p s).2.in2 = s.in2 := rfl
@[simp] theorem pinRead_in3 (p : InPin) (s : State) : (pinRead p s).2.in3 = s.in3 := rfl
@[simp] theorem pinRead_in4 (p : InPin) (s : State) : (pinRead p s).2.in4 = s.in4 := rfl
@[simp] theorem pinRead_rowsSet (p : InPin) (s : State) : (pinRead p s).2.rowsSet = s.rowsSet := rfl
@[simp] theorem pinRead_y (p : InPin) (s : State) : (pinRead p s).2.y = s.y := rfl
@[simp] theorem pinRead_yb (p : InPin) (s : State) : (pinRead p s).2.yb = s.yb := rfl
@[simp] theorem pinRead_fb (p : InPin) (s : State) : (pinRead p s).2.fb = s.fb := rfl
@[simp] theorem pinRead_fbCleared (p : InPin) (s : State) : (pinRead p s).2.fbCleared = s.fbCleared := rfl
@[simp] theorem pinRead_pinMode (p : InPin) (s : State) : (pinRead p s).2.pinMode = s.pinMode := rfl
@[simp] theorem pinRead_latchClk (p : InPin) (s : State) : (pinRead p s).2.latchClk = s.latchClk := rfl
@[simp] theorem pinRead_latchDat (p : InPin) (s : State) : (pinRead p s).2.latchDat = s.latchDat := rfl
@[simp] theorem pinRead_outPin (p : InPin) (s : State) : (pinRead p s).2.outPin = s.outPin := rfl
@[simp] theorem pinRead_nv (p : InPin) (s : State) : (pinRead p s).2.nv = s.nv := rfl
@[simp] theorem pinRead_res (p : InPin) (s : State) : (pinRead p s).2.res = s.res := rfl
@[simp] theorem pinRead_owner (p : InPin) (s : State) : (pinRead p s).2.owner = s.owner := rfl
@[simp] theorem pinRead_commands (p : InPin) (s : State) : (pinRead p s).2.commands = s.commands := rfl

/-! ### release -/

@[simp] theorem release_pinMode (w : Wire) (s : State) : (release w s).pinMode = s.pinMode.set w.pin.val .pullUp w.pin.isLt := rfl
@[simp] theorem release_trace (w : Wire) (s : State) : (release w s).trace = s.trace ++ [.rel w.pin] := rfl
@[simp] theorem release_family (w : Wire) (s : State) : (release w s).family = s.family := rfl
@[simp] theorem release_familySet (w : Wire) (s : State) : (release w s).familySet = s.familySet := rfl
@[simp] theorem release_displayPresent (w : Wire) (s : State) : (release w s).displayPresent = s.displayPresent := rfl
@[simp] theorem release_probed (w : Wire) (s : State) : (release w s).probed = s.probed := rfl
@[simp] theorem release_dispAddr (w : Wire) (s : State) : (release w s).dispAddr = s.dispAddr := rfl
@[simp] theorem release_prevBtn (w : Wire) (s : State) : (release w s).prevBtn = s.prevBtn := rfl
@[simp] theorem release_in1 (w : Wire) (s : State) : (release w s).in1 = s.in1 := rfl
@[simp] theorem release_in2 (w : Wire) (s : State) : (release w s).in2 = s.in2 := rfl
@[simp] theorem release_in3 (w : Wire) (s : State) : (release w s).in3 = s.in3 := rfl
@[simp] theorem release_in4 (w : Wire) (s : State) : (release w s).in4 = s.in4 := rfl
@[simp] theorem release_rowsSet (w : Wire) (s : State) : (release w s).rowsSet = s.rowsSet := rfl
@[simp] theorem release_y (w : Wire) (s : State) : (release w s).y = s.y := rfl
@[simp] theorem release_yb (w : Wire) (s : State) : (release w s).yb = s.yb := rfl
@[simp] theorem release_fb (w : Wire) (s : State) : (release w s).fb = s.fb := rfl
@[simp] theorem release_fbCleared (w : Wire) (s : State) : (release w s).fbCleared = s.fbCleared := rfl
@[simp] theorem release_latchClk (w : Wire) (s : State) : (release w s).latchClk = s.latchClk := rfl
@[simp] theorem release_latchDat (w : Wire) (s : State) : (release w s).latchDat = s.latchDat := rfl
@[simp] theorem release_outPin (w : Wire) (s : State) : (release w s).outPin = s.outPin := rfl
@[simp] theorem release_nv (w : Wire) (s : State) : (release w s).nv = s.nv := rfl
@[simp] theorem release_res (w : Wire) (s : State) : (release w s).res = s.res := rfl
@[simp] theorem release_owner (w : Wire) (s : State) : (release w s).owner = s.owner := rfl
@[simp] theorem release_commands (w : Wire) (s : State) : (release w s).commands = s.commands := rfl
@[simp] theorem release_pinAnswers (w : Wire) (s : State) : (release w s).pinAnswers = s.pinAnswers := rfl
@[simp] theorem release_pinReads (w : Wire) (s : State) : (release w s).pinReads = s.pinReads := rfl

/-! ### assertLow_clk -/

@[simp] theorem assertLow_clk_pinMode (s : State) : (assertLow .clk s).pinMode = s.pinMode.set 7 .output := rfl
@[simp] theorem assertLow_clk_latchClk (s : State) : (assertLow .clk s).latchClk = false := rfl
@[simp] theorem assertLow_clk_trace (s : State) : (assertLow .clk s).trace = s.trace ++ [.low 7] := rfl
@[simp] theorem assertLow_clk_family (s : State) : (assertLow .clk s).family = s.family := rfl
@[simp] theorem assertLow_clk_familySet (s : State) : (assertLow .clk s).familySet = s.familySet := rfl
@[simp] theorem assertLow_clk_displayPresent (s : State) : (assertLow .clk s).displayPresent = s.displayPresent := rfl
@[simp] theorem assertLow_clk_probed (s : State) : (assertLow .clk s).probed = s.probed := rfl
@[simp] theorem assertLow_clk_dispAddr (s : State) : (assertLow .clk s).dispAddr = s.dispAddr := rfl
@[simp] theorem assertLow_clk_prevBtn (s : State) : (assertLow .clk s).prevBtn = s.prevBtn := rfl
@[simp] theorem assertLow_clk_in1 (s : State) : (assertLow .clk s).in1 = s.in1 := rfl
@[simp] theorem assertLow_clk_in2 (s : State) : (assertLow .clk s).in2 = s.in2 := rfl
@[simp] theorem assertLow_clk_in3 (s : State) : (assertLow .clk s).in3 = s.in3 := rfl
@[simp] theorem assertLow_clk_in4 (s : State) : (assertLow .clk s).in4 = s.in4 := rfl
@[simp] theorem assertLow_clk_rowsSet (s : State) : (assertLow .clk s).rowsSet = s.rowsSet := rfl
@[simp] theorem assertLow_clk_y (s : State) : (assertLow .clk s).y = s.y := rfl
@[simp] theorem assertLow_clk_yb (s : State) : (assertLow .clk s).yb = s.yb := rfl
@[simp] theorem assertLow_clk_fb (s : State) : (assertLow .clk s).fb = s.fb := rfl
@[simp] theorem assertLow_clk_fbCleared (s : State) : (assertLow .clk s).fbCleared = s.fbCleared := rfl
@[simp] theorem assertLow_clk_latchDat (s : State) : (assertLow .clk s).latchDat = s.latchDat := rfl
@[simp] theorem assertLow_clk_outPin (s : State) : (assertLow .clk s).outPin = s.outPin := rfl
@[simp] theorem assertLow_clk_nv (s : State) : (assertLow .clk s).nv = s.nv := rfl
@[simp] theorem assertLow_clk_res (s : State) : (assertLow .clk s).res = s.res := rfl
@[simp] theorem assertLow_clk_owner (s : State) : (assertLow .clk s).owner = s.owner := rfl
@[simp] theorem assertLow_clk_commands (s : State) : (assertLow .clk s).commands = s.commands := rfl
@[simp] theorem assertLow_clk_pinAnswers (s : State) : (assertLow .clk s).pinAnswers = s.pinAnswers := rfl
@[simp] theorem assertLow_clk_pinReads (s : State) : (assertLow .clk s).pinReads = s.pinReads := rfl

/-! ### assertLow_dat -/

@[simp] theorem assertLow_dat_pinMode (s : State) : (assertLow .dat s).pinMode = s.pinMode.set 8 .output := rfl
@[simp] theorem assertLow_dat_latchDat (s : State) : (assertLow .dat s).latchDat = false := rfl
@[simp] theorem assertLow_dat_trace (s : State) : (assertLow .dat s).trace = s.trace ++ [.low 8] := rfl
@[simp] theorem assertLow_dat_family (s : State) : (assertLow .dat s).family = s.family := rfl
@[simp] theorem assertLow_dat_familySet (s : State) : (assertLow .dat s).familySet = s.familySet := rfl
@[simp] theorem assertLow_dat_displayPresent (s : State) : (assertLow .dat s).displayPresent = s.displayPresent := rfl
@[simp] theorem assertLow_dat_probed (s : State) : (assertLow .dat s).probed = s.probed := rfl
@[simp] theorem assertLow_dat_dispAddr (s : State) : (assertLow .dat s).dispAddr = s.dispAddr := rfl
@[simp] theorem assertLow_dat_prevBtn (s : State) : (assertLow .dat s).prevBtn = s.prevBtn := rfl
@[simp] theorem assertLow_dat_in1 (s : State) : (assertLow .dat s).in1 = s.in1 := rfl
@[simp] theorem assertLow_dat_in2 (s : State) : (assertLow .dat s).in2 = s.in2 := rfl
@[simp] theorem assertLow_dat_in3 (s : State) : (assertLow .dat s).in3 = s.in3 := rfl
@[simp] theorem assertLow_dat_in4 (s : State) : (assertLow .dat s).in4 = s.in4 := rfl
@[simp] theorem assertLow_dat_rowsSet (s : State) : (assertLow .dat s).rowsSet = s.rowsSet := rfl
@[simp] theorem assertLow_dat_y (s : State) : (assertLow .dat s).y = s.y := rfl
@[simp] theorem assertLow_dat_yb (s : State) : (assertLow .dat s).yb = s.yb := rfl
@[simp] theorem assertLow_dat_fb (s : State) : (assertLow .dat s).fb = s.fb := rfl
@[simp] theorem assertLow_dat_fbCleared (s : State) : (assertLow .dat s).fbCleared = s.fbCleared := rfl
@[simp] theorem assertLow_dat_latchClk (s : State) : (assertLow .dat s).latchClk = s.latchClk := rfl
@[simp] theorem assertLow_dat_outPin (s : State) : (assertLow .dat s).outPin = s.outPin := rfl
@[simp] theorem assertLow_dat_nv (s : State) : (assertLow .dat s).nv = s.nv := rfl
@[simp] theorem assertLow_dat_res (s : State) : (assertLow .dat s).res = s.res := rfl
@[simp] theorem assertLow_dat_owner (s : State) : (assertLow .dat s).owner = s.owner := rfl
@[simp] theorem assertLow_dat_commands (s : State) : (assertLow .dat s).commands = s.commands := rfl
@[simp] theorem assertLow_dat_pinAnswers (s : State) : (assertLow .dat s).pinAnswers = s.pinAnswers := rfl
@[simp] theorem assertLow_dat_pinReads (s : State) : (assertLow .dat s).pinReads = s.pinReads := rfl

/-! ### toInput -/

@[simp] theorem toInput_pinMode (w : Wire) (s : State) : (toInput w s).pinMode = s.pinMode.set w.pin.val .plain w.pin.isLt := rfl
@[simp] theorem toInput_trace (w : Wire) (s : State) : (toInput w s).trace = s.trace ++ [.inp w.pin] := rfl
@[simp] theorem toInput_family (w : Wire) (s : State) : (toInput w s).family = s.family := rfl
@[simp] theorem toInput_familySet (w : Wire) (s : State) : (toInput w s).familySet = s.familySet := rfl
@[simp] theorem toInput_displayPresent (w : Wire) (s : State) : (toInput w s).displayPresent = s.displayPresent := rfl
@[simp] theorem toInput_probed (w : Wire) (s : State) : (toInput w s).probed = s.probed := rfl
@[simp] theorem toInput_dispAddr (w : Wire) (s : State) : (toInput w s).dispAddr = s.dispAddr := rfl
@[simp] theorem toInput_prevBtn (w : Wire) (s : State) : (toInput w s).prevBtn = s.prevBtn := rfl
@[simp] theorem toInput_in1 (w : Wire) (s : State) : (toInput w s).in1 = s.in1 := rfl
@[simp] theorem toInput_in2 (w : Wire) (s : State) : (toInput w s).in2 = s.in2 := rfl
@[simp] theorem toInput_in3 (w : Wire) (s : State) : (toInput w s).in3 = s.in3 := rfl
@[simp] theorem toInput_in4 (w : Wire) (s : State) : (toInput w s).in4 = s.in4 := rfl
@[simp] theorem toInput_rowsSet (w : Wire) (s : State) : (toInput w s).rowsSet = s.rowsSet := rfl
@[simp] theorem toInput_y (w : Wire) (s : State) : (toInput w s).y = s.y := rfl
@[simp] theorem toInput_yb (w : Wire) (s : State) : (toInput w s).yb = s.yb := rfl
@[simp] theorem toInput_fb (w : Wire) (s : State) : (toInput w s).fb = s.fb := rfl
@[simp] theorem toInput_fbCleared (w : Wire) (s : State) : (toInput w s).fbCleared = s.fbCleared := rfl
@[simp] theorem toInput_latchClk (w : Wire) (s : State) : (toInput w s).latchClk = s.latchClk := rfl
@[simp] theorem toInput_latchDat (w : Wire) (s : State) : (toInput w s).latchDat = s.latchDat := rfl
@[simp] theorem toInput_outPin (w : Wire) (s : State) : (toInput w s).outPin = s.outPin := rfl
@[simp] theorem toInput_nv (w : Wire) (s : State) : (toInput w s).nv = s.nv := rfl
@[simp] theorem toInput_res (w : Wire) (s : State) : (toInput w s).res = s.res := rfl
@[simp] theorem toInput_owner (w : Wire) (s : State) : (toInput w s).owner = s.owner := rfl
@[simp] theorem toInput_commands (w : Wire) (s : State) : (toInput w s).commands = s.commands := rfl
@[simp] theorem toInput_pinAnswers (w : Wire) (s : State) : (toInput w s).pinAnswers = s.pinAnswers := rfl
@[simp] theorem toInput_pinReads (w : Wire) (s : State) : (toInput w s).pinReads = s.pinReads := rfl

/-! ### driveOutputs -/

@[simp] theorem driveOutputs_y (a b : Bool) (s : State) : (driveOutputs a b s).y = a := rfl
@[simp] theorem driveOutputs_yb (a b : Bool) (s : State) : (driveOutputs a b s).yb = b := rfl
@[simp] theorem driveOutputs_outPin (a b : Bool) (s : State) : (driveOutputs a b s).outPin = #v[a, a, a, b, b, b] := rfl
@[simp] theorem driveOutputs_trace (a b : Bool) (s : State) : (driveOutputs a b s).trace = s.trace ++ [.out 0 a, .out 1 a, .out 2 a, .out 3 b, .out 4 b, .out 5 b] := rfl
@[simp] theorem driveOutputs_family (a b : Bool) (s : State) : (driveOutputs a b s).family = s.family := rfl
@[simp] theorem driveOutputs_familySet (a b : Bool) (s : State) : (driveOutputs a b s).familySet = s.familySet := rfl
@[simp] theorem driveOutputs_displayPresent (a b : Bool) (s : State) : (driveOutputs a b s).displayPresent = s.displayPresent := rfl
@[simp] theorem driveOutputs_probed (a b : Bool) (s : State) : (driveOutputs a b s).probed = s.probed := rfl
@[simp] theorem driveOutputs_dispAddr (a b : Bool) (s : State) : (driveOutputs a b s).dispAddr = s.dispAddr := rfl
@[simp] theorem driveOutputs_prevBtn (a b : Bool) (s : State) : (driveOutputs a b s).prevBtn = s.prevBtn := rfl
@[simp] theorem driveOutputs_in1 (a b : Bool) (s : State) : (driveOutputs a b s).in1 = s.in1 := rfl
@[simp] theorem driveOutputs_in2 (a b : Bool) (s : State) : (driveOutputs a b s).in2 = s.in2 := rfl
@[simp] theorem driveOutputs_in3 (a b : Bool) (s : State) : (driveOutputs a b s).in3 = s.in3 := rfl
@[simp] theorem driveOutputs_in4 (a b : Bool) (s : State) : (driveOutputs a b s).in4 = s.in4 := rfl
@[simp] theorem driveOutputs_rowsSet (a b : Bool) (s : State) : (driveOutputs a b s).rowsSet = s.rowsSet := rfl
@[simp] theorem driveOutputs_fb (a b : Bool) (s : State) : (driveOutputs a b s).fb = s.fb := rfl
@[simp] theorem driveOutputs_fbCleared (a b : Bool) (s : State) : (driveOutputs a b s).fbCleared = s.fbCleared := rfl
@[simp] theorem driveOutputs_pinMode (a b : Bool) (s : State) : (driveOutputs a b s).pinMode = s.pinMode := rfl
@[simp] theorem driveOutputs_latchClk (a b : Bool) (s : State) : (driveOutputs a b s).latchClk = s.latchClk := rfl
@[simp] theorem driveOutputs_latchDat (a b : Bool) (s : State) : (driveOutputs a b s).latchDat = s.latchDat := rfl
@[simp] theorem driveOutputs_nv (a b : Bool) (s : State) : (driveOutputs a b s).nv = s.nv := rfl
@[simp] theorem driveOutputs_res (a b : Bool) (s : State) : (driveOutputs a b s).res = s.res := rfl
@[simp] theorem driveOutputs_owner (a b : Bool) (s : State) : (driveOutputs a b s).owner = s.owner := rfl
@[simp] theorem driveOutputs_commands (a b : Bool) (s : State) : (driveOutputs a b s).commands = s.commands := rfl
@[simp] theorem driveOutputs_pinAnswers (a b : Bool) (s : State) : (driveOutputs a b s).pinAnswers = s.pinAnswers := rfl
@[simp] theorem driveOutputs_pinReads (a b : Bool) (s : State) : (driveOutputs a b s).pinReads = s.pinReads := rfl

/-! ### clearFrame -/

@[simp] theorem clearFrame_fb (s : State) : (clearFrame s).fb = [] := rfl
@[simp] theorem clearFrame_fbCleared (s : State) : (clearFrame s).fbCleared = true := rfl
@[simp] theorem clearFrame_family (s : State) : (clearFrame s).family = s.family := rfl
@[simp] theorem clearFrame_familySet (s : State) : (clearFrame s).familySet = s.familySet := rfl
@[simp] theorem clearFrame_displayPresent (s : State) : (clearFrame s).displayPresent = s.displayPresent := rfl
@[simp] theorem clearFrame_probed (s : State) : (clearFrame s).probed = s.probed := rfl
@[simp] theorem clearFrame_dispAddr (s : State) : (clearFrame s).dispAddr = s.dispAddr := rfl
@[simp] theorem clearFrame_prevBtn (s : State) : (clearFrame s).prevBtn = s.prevBtn := rfl
@[simp] theorem clearFrame_in1 (s : State) : (clearFrame s).in1 = s.in1 := rfl
@[simp] theorem clearFrame_in2 (s : State) : (clearFrame s).in2 = s.in2 := rfl
@[simp] theorem clearFrame_in3 (s : State) : (clearFrame s).in3 = s.in3 := rfl
@[simp] theorem clearFrame_in4 (s : State) : (clearFrame s).in4 = s.in4 := rfl
@[simp] theorem clearFrame_rowsSet (s : State) : (clearFrame s).rowsSet = s.rowsSet := rfl
@[simp] theorem clearFrame_y (s : State) : (clearFrame s).y = s.y := rfl
@[simp] theorem clearFrame_yb (s : State) : (clearFrame s).yb = s.yb := rfl
@[simp] theorem clearFrame_pinMode (s : State) : (clearFrame s).pinMode = s.pinMode := rfl
@[simp] theorem clearFrame_latchClk (s : State) : (clearFrame s).latchClk = s.latchClk := rfl
@[simp] theorem clearFrame_latchDat (s : State) : (clearFrame s).latchDat = s.latchDat := rfl
@[simp] theorem clearFrame_outPin (s : State) : (clearFrame s).outPin = s.outPin := rfl
@[simp] theorem clearFrame_nv (s : State) : (clearFrame s).nv = s.nv := rfl
@[simp] theorem clearFrame_res (s : State) : (clearFrame s).res = s.res := rfl
@[simp] theorem clearFrame_owner (s : State) : (clearFrame s).owner = s.owner := rfl
@[simp] theorem clearFrame_trace (s : State) : (clearFrame s).trace = s.trace := rfl
@[simp] theorem clearFrame_commands (s : State) : (clearFrame s).commands = s.commands := rfl
@[simp] theorem clearFrame_pinAnswers (s : State) : (clearFrame s).pinAnswers = s.pinAnswers := rfl
@[simp] theorem clearFrame_pinReads (s : State) : (clearFrame s).pinReads = s.pinReads := rfl

/-! ### probeFound -/

@[simp] theorem probeFound_displayPresent (a : DeviceAddr) (s : State) : (probeFound a s).displayPresent = true := rfl
@[simp] theorem probeFound_probed (a : DeviceAddr) (s : State) : (probeFound a s).probed = true := rfl
@[simp] theorem probeFound_dispAddr (a : DeviceAddr) (s : State) : (probeFound a s).dispAddr = a := rfl
@[simp] theorem probeFound_res (a : DeviceAddr) (s : State) : (probeFound a s).res = true := rfl
@[simp] theorem probeFound_family (a : DeviceAddr) (s : State) : (probeFound a s).family = s.family := rfl
@[simp] theorem probeFound_familySet (a : DeviceAddr) (s : State) : (probeFound a s).familySet = s.familySet := rfl
@[simp] theorem probeFound_prevBtn (a : DeviceAddr) (s : State) : (probeFound a s).prevBtn = s.prevBtn := rfl
@[simp] theorem probeFound_in1 (a : DeviceAddr) (s : State) : (probeFound a s).in1 = s.in1 := rfl
@[simp] theorem probeFound_in2 (a : DeviceAddr) (s : State) : (probeFound a s).in2 = s.in2 := rfl
@[simp] theorem probeFound_in3 (a : DeviceAddr) (s : State) : (probeFound a s).in3 = s.in3 := rfl
@[simp] theorem probeFound_in4 (a : DeviceAddr) (s : State) : (probeFound a s).in4 = s.in4 := rfl
@[simp] theorem probeFound_rowsSet (a : DeviceAddr) (s : State) : (probeFound a s).rowsSet = s.rowsSet := rfl
@[simp] theorem probeFound_y (a : DeviceAddr) (s : State) : (probeFound a s).y = s.y := rfl
@[simp] theorem probeFound_yb (a : DeviceAddr) (s : State) : (probeFound a s).yb = s.yb := rfl
@[simp] theorem probeFound_fb (a : DeviceAddr) (s : State) : (probeFound a s).fb = s.fb := rfl
@[simp] theorem probeFound_fbCleared (a : DeviceAddr) (s : State) : (probeFound a s).fbCleared = s.fbCleared := rfl
@[simp] theorem probeFound_pinMode (a : DeviceAddr) (s : State) : (probeFound a s).pinMode = s.pinMode := rfl
@[simp] theorem probeFound_latchClk (a : DeviceAddr) (s : State) : (probeFound a s).latchClk = s.latchClk := rfl
@[simp] theorem probeFound_latchDat (a : DeviceAddr) (s : State) : (probeFound a s).latchDat = s.latchDat := rfl
@[simp] theorem probeFound_outPin (a : DeviceAddr) (s : State) : (probeFound a s).outPin = s.outPin := rfl
@[simp] theorem probeFound_nv (a : DeviceAddr) (s : State) : (probeFound a s).nv = s.nv := rfl
@[simp] theorem probeFound_owner (a : DeviceAddr) (s : State) : (probeFound a s).owner = s.owner := rfl
@[simp] theorem probeFound_trace (a : DeviceAddr) (s : State) : (probeFound a s).trace = s.trace := rfl
@[simp] theorem probeFound_commands (a : DeviceAddr) (s : State) : (probeFound a s).commands = s.commands := rfl
@[simp] theorem probeFound_pinAnswers (a : DeviceAddr) (s : State) : (probeFound a s).pinAnswers = s.pinAnswers := rfl
@[simp] theorem probeFound_pinReads (a : DeviceAddr) (s : State) : (probeFound a s).pinReads = s.pinReads := rfl

end Sys2Proof.Machine
end

