-- ==== Sys2Proof/Laws/Wires.lean ====
section
/-! SUPPORT. Sys2Proof/Laws/Wires.lean: for each shared operation of the Sampler and the Bit-Protocol Driver one equation that
says everything it does. -/

namespace Sys2Proof.Machine

/-! ### Answers of the environment -/

@[simp] theorem levelAt_zero (s : State) (p : InPin) : levelAt s p 0 = nextLevel p s := by
  simp [levelAt, nextLevel]

/-- The level of a read depends on the answers and on the number of reads made. -/
theorem nextLevel_congr {s t : State} (p : InPin) (ha : t.pinAnswers = s.pinAnswers)
    (hr : t.pinReads = s.pinReads) : nextLevel p t = nextLevel p s := by
  simp [nextLevel, ha, hr]

/-- The level of a read after `n` reads is the n-th level from before them. -/
theorem nextLevel_after {s t : State} (p : InPin) (n : Nat) (ha : t.pinAnswers = s.pinAnswers.drop n)
    (hr : t.pinReads = s.pinReads + n) : nextLevel p t = levelAt s p n := by
  simp [nextLevel, levelAt, ha, hr]

/-- The i-th level after `n` reads is the (n + i)-th from before them. -/
theorem levelAt_after {s t : State} (p : InPin) (n i : Nat) (ha : t.pinAnswers = s.pinAnswers.drop n)
    (hr : t.pinReads = s.pinReads + n) : levelAt t p i = levelAt s p (n + i) := by
  simp [levelAt, ha, hr, Nat.add_assoc]

/-- The levels depend on the answers and on the number of reads made. -/
theorem levelAt_congr {s t : State} (ha : t.pinAnswers = s.pinAnswers) (hr : t.pinReads = s.pinReads) :
    levelAt t = levelAt s := by
  funext p i
  simp [levelAt, ha, hr]

/-- The events of a transaction after `n` reads, with its samples numbered from before them. -/
theorem txnEvents_after {s t : State} (n k : Nat) (a : DeviceAddr) (bs : List Byte)
    (ha : t.pinAnswers = s.pinAnswers.drop n) (hr : t.pinReads = s.pinReads + n) :
    txnEvents (levelAt t datPin) k a bs = txnEvents (levelAt s datPin) (n + k) a bs := by
  have key (m : Nat) (cs : List Byte) :
      bytesEvents (levelAt t datPin) m cs = bytesEvents (levelAt s datPin) (n + m) cs := by
    induction cs generalizing m with
    | nil => rfl
    | cons c cs ih => simp only [bytesEvents, ih, levelAt_after datPin n m ha hr, Nat.add_assoc]
  simp only [txnEvents, key]

/-! ### The Sampler (R101) -/

/-- What `readStable` does: three answers used, three RD events, the majority as the result. -/
theorem readStable_eq (P : Params) (p : InPin) (s : State) :
    readStable P p s =
      (maj3 (levelAt s p 0) (levelAt s p 1) (levelAt s p 2),
        { s with
          trace := s.trace ++ [.rd p (levelAt s p 0), .rd p (levelAt s p 1), .rd p (levelAt s p 2)]
          pinAnswers := s.pinAnswers.drop 3
          pinReads := s.pinReads + 3 }) := by
  have h1 := nextLevel_after (s := s) (t := (pinRead p s).2) p 1 (by simp) (by simp)
  have h2 := nextLevel_after (s := s) (t := (pinRead p (pinRead p s).2).2) p 2
    (by simp [← List.drop_one]) (by simp)
  simp only [readStable, delay_eq]
  refine Prod.ext ?_ ?_
  · change maj3 (nextLevel p s) (nextLevel p (pinRead p s).2) (nextLevel p (pinRead p (pinRead p s).2).2) = _
    rw [h1, h2, levelAt_zero]
  · change emit _ _ = _
    rw [h2]
    simp [emit, pinRead, levelAt_zero, ← h1, ← List.drop_one]

/-- What the loop of `rowOR` does from the value `r` so far, reads numbered from `n` of a state `s0` (R102). -/
theorem rowOrFrom_eq (P : Params) (ps : List InPin) (r : Bool) (s s0 : State) (n : Nat)
    (ha : s.pinAnswers = s0.pinAnswers.drop n) (hr : s.pinReads = s0.pinReads + n) :
    rowOrFrom P ps r s =
      (r || anyDebounced s0 n (sampledPins P.shortCircuit s0 n ps),
        { s with
          trace := s.trace ++ sampleEvents s0 n (sampledPins P.shortCircuit s0 n ps)
          pinAnswers := s.pinAnswers.drop (3 * (sampledPins P.shortCircuit s0 n ps).length)
          pinReads := s.pinReads + 3 * (sampledPins P.shortCircuit s0 n ps).length }) := by
  induction ps generalizing r s n with
  | nil => simp [rowOrFrom, sampledPins, anyDebounced, sampleEvents]
  | cons p ps ih =>
    have hl (i : Nat) : levelAt s p i = levelAt s0 p (n + i) := levelAt_after p n i ha hr
    have hd : (readStable P p s).1 = debouncedAt s0 p n := by simp [readStable_eq, debouncedAt, hl]
    rw [rowOrFrom]
    simp only [hd]
    by_cases h : debouncedAt s0 p n
    · by_cases hs : P.shortCircuit
      · simp [h, hs, sampledPins, anyDebounced, sampleEvents, readStable_eq, hl]
      · simp only [h, hs, sampledPins, Bool.and_false, Bool.false_eq_true, if_true, if_false]
        rw [ih true (readStable P p s).2 (n + 3) (by simp [readStable_eq, ha])
          (by simp [readStable_eq, hr, Nat.add_assoc])]
        simp [readStable_eq, anyDebounced, sampleEvents, hl, h, hs, Nat.mul_add, Nat.add_comm]
        omega
    · simp only [h, sampledPins, Bool.false_and, Bool.false_eq_true, if_false]
      rw [ih r (readStable P p s).2 (n + 3) (by simp [readStable_eq, ha])
        (by simp [readStable_eq, hr, Nat.add_assoc])]
      simp [readStable_eq, anyDebounced, sampleEvents, hl, h, Nat.mul_add, Nat.add_comm]
      omega

/-- What `rowOR` does (R102): the sampled pins' RD events, three answers each, and whether one of them is stable-true. -/
theorem rowOr_eq (P : Params) (ps : List InPin) (s : State) :
    rowOr P ps s =
      (anyDebounced s 0 (sampledPins P.shortCircuit s 0 ps),
        { s with
          trace := s.trace ++ sampleEvents s 0 (sampledPins P.shortCircuit s 0 ps)
          pinAnswers := s.pinAnswers.drop (3 * (sampledPins P.shortCircuit s 0 ps).length)
          pinReads := s.pinReads + 3 * (sampledPins P.shortCircuit s 0 ps).length }) := by
  rw [rowOr, rowOrFrom_eq P ps false s s 0 (by simp) (by simp)]
  simp

/-! ### Wire sequences (R111 to R113) -/

theorem wiresSet_set_clk (v : Vector PinMode 10) (a b c : PinMode) :
    (wiresSet v a b).set 7 c = wiresSet v c b := by
  simp only [wiresSet]
  rw [Vector.set_comm (i := 8) (j := 7) _ _ (by decide), Vector.set_set]

theorem wiresSet_set_dat (v : Vector PinMode 10) (a b c : PinMode) :
    (wiresSet v a b).set 8 c = wiresSet v a c := by
  simp only [wiresSet, Vector.set_set]

/-- What BSTART does (R111). -/
theorem busStart_eq (P : Params) (s : State) :
    busStart P s =
      { s with
        pinMode := wiresSet s.pinMode .output .output
        latchClk := false
        latchDat := false
        trace := s.trace ++ startEvents } := by
  simp [busStart, release, assertLow, emit, setPinMode, pinWrite, Wire.pin, startEvents, wiresSet,
    Vector.set_comm (i := 8) (j := 7)]

/-- What BSTOP does (R112). -/
theorem busStop_eq (P : Params) (s : State) :
    busStop P s =
      { s with
        pinMode := wiresSet s.pinMode .pullUp .pullUp
        latchDat := false
        trace := s.trace ++ stopEvents } := by
  simp [busStop, release, assertLow, emit, setPinMode, pinWrite, Wire.pin, stopEvents, wiresSet,
    Vector.set_comm (i := 8) (j := 7)]

theorem wiresSet_wiresSet (v : Vector PinMode 10) (a b c d : PinMode) :
    wiresSet (wiresSet v a b) c d = wiresSet v c d := by
  change ((wiresSet v a b).set 7 c).set 8 d = _
  rw [wiresSet_set_clk, wiresSet_set_dat]

@[simp] theorem wiresSet_clk (v : Vector PinMode 10) (a b : PinMode) :
    (wiresSet v a b)[clkPin] = a := by
  simp [wiresSet, clkPin]

@[simp] theorem wiresSet_dat (v : Vector PinMode 10) (a b : PinMode) :
    (wiresSet v a b)[datPin] = b := by
  simp [wiresSet, datPin]

@[simp] theorem wiresSet_at7 (v : Vector PinMode 10) (a b : PinMode) : (wiresSet v a b)[(7 : Nat)] = a := by
  simp [wiresSet]

@[simp] theorem wiresSet_at8 (v : Vector PinMode 10) (a b : PinMode) : (wiresSet v a b)[(8 : Nat)] = b := by
  simp [wiresSet]

/-- Setting the wires leaves every other pin. -/
theorem wiresSet_other (v : Vector PinMode 10) (a b : PinMode) (p : InPin) (h : isWirePin p = false) :
    (wiresSet v a b)[p] = v[p] := by
  simp only [isWirePin, Bool.or_eq_false_iff, decide_eq_false_iff_not, Fin.ext_iff] at h
  have h7 : (7 : Nat) ≠ p.val := fun e => h.1 e.symm
  have h8 : (8 : Nat) ≠ p.val := fun e => h.2 e.symm
  simp [wiresSet, h7, h8]

/-- What clocking one data bit does (R113). -/
theorem shiftBit_eq (P : Params) (b : Bool) (s : State) :
    shiftBit P b s =
      { s with
        pinMode := wiresSet s.pinMode .output (if b then .pullUp else .output)
        latchClk := false
        latchDat := s.latchDat && b
        trace := s.trace ++ bitEvents b } := by
  cases b <;>
    simp [shiftBit, clockPulse, release, assertLow, emit, setPinMode, pinWrite, Wire.pin, bitEvents, wiresSet,
      Vector.set_comm (i := 8) (j := 7)]

/-- What the ninth clock does (R113). -/
theorem ackClock_eq (P : Params) (s : State) :
    ackClock P s =
      (!levelAt s datPin 0,
        { s with
          pinMode := wiresSet s.pinMode .output .pullUp
          latchClk := false
          trace := s.trace ++ [.rel datPin, .rel clkPin, .rd datPin (levelAt s datPin 0), .low clkPin]
          pinAnswers := s.pinAnswers.tail
          pinReads := s.pinReads + 1 }) := by
  have h := nextLevel_congr (s := s) (t := release .clk (release .dat s)) datPin (by simp) (by simp)
  refine Prod.ext ?_ ?_
  · change (!nextLevel datPin (release .clk (release .dat s))) = _
    rw [h, levelAt_zero]
  · rw [levelAt_zero, ← h]
    simp [ackClock, pinRead, release, assertLow, emit, setPinMode, pinWrite, Wire.pin, wiresSet,
      Vector.set_comm (i := 8) (j := 7)]

/-- What `writeByte` does: 28 events, one answer used, the acknowledge is a low sample (R113). -/
theorem writeByte_eq (P : Params) (b : Byte) (s : State) :
    writeByte P b s =
      (!levelAt s datPin 0,
        { s with
          pinMode := wiresSet s.pinMode .output .pullUp
          latchClk := false
          latchDat := s.latchDat && (bitsMsbFirst b).all id
          trace := s.trace ++ byteEvents b (levelAt s datPin 0)
          pinAnswers := s.pinAnswers.drop 1
          pinReads := s.pinReads + 1 }) := by
  have hb : bitsMsbFirst b = [b.getLsbD 7, b.getLsbD 6, b.getLsbD 5, b.getLsbD 4, b.getLsbD 3, b.getLsbD 2,
      b.getLsbD 1, b.getLsbD 0] := rfl
  simp only [writeByte, hb, shiftBits, shiftBit_eq, ackClock_eq, wiresSet_wiresSet]
  simp [levelAt, byteEvents, Bool.and_assoc]

/-- What writing bytes in order does: one answer used per byte, every acknowledge discarded (R115). -/
theorem sendBytes_eq (P : Params) (bs : List Byte) (s : State) (n : Nat) (samples : Nat → Bool)
    (h : ∀ i, samples (n + i) = levelAt s datPin i) (hne : bs ≠ []) :
    sendBytes P bs s =
      { s with
        pinMode := wiresSet s.pinMode .output .pullUp
        latchClk := false
        latchDat := s.latchDat && bs.all fun b => (bitsMsbFirst b).all id
        trace := s.trace ++ bytesEvents samples n bs
        pinAnswers := s.pinAnswers.drop bs.length
        pinReads := s.pinReads + bs.length } := by
  induction bs generalizing s n with
  | nil => exact absurd rfl hne
  | cons b bs ih =>
    have h0 := h 0
    cases bs with
    | nil => simp [sendBytes, writeByte_eq, bytesEvents, ← h0]
    | cons c cs =>
      rw [sendBytes, ih (writeByte P b s).2 (n + 1) ?_ (by simp)]
      · simp [writeByte_eq, wiresSet_wiresSet, bytesEvents, ← h0, Bool.and_assoc]
        omega
      · intro i
        rw [levelAt_after (s := s) datPin 1 i (by simp [writeByte_eq]) (by simp [writeByte_eq]), ← h (1 + i),
          Nat.add_assoc]

/-- What a transaction does (R115): its events, one answer used per byte, both wires idle after it. -/
theorem txn_eq (P : Params) (a : DeviceAddr) (bs : List Byte) (s : State) (n : Nat) (samples : Nat → Bool)
    (h : ∀ i, samples (n + i) = levelAt s datPin i) :
    txn P a bs s =
      { s with
        pinMode := wiresSet s.pinMode .pullUp .pullUp
        latchClk := false
        latchDat := false
        trace := s.trace ++ txnEvents samples n a bs
        pinAnswers := s.pinAnswers.drop (bs.length + 1)
        pinReads := s.pinReads + (bs.length + 1) } := by
  rw [txn, sendBytes_eq P _ _ n samples ?_ (by simp)]
  · simp [busStart_eq, busStop_eq, wiresSet_wiresSet, txnEvents]
  · intro i
    rw [h i]
    simp [busStart_eq, levelAt]

/-- What one probe attempt does (R114): a transaction without data, and its acknowledge. -/
theorem probeOne_eq (P : Params) (a : DeviceAddr) (s : State) :
    probeOne P a s =
      (!levelAt s datPin 0,
        { s with
          pinMode := wiresSet s.pinMode .pullUp .pullUp
          latchClk := false
          latchDat := false
          trace := s.trace ++ txnEvents (levelAt s datPin) 0 a []
          pinAnswers := s.pinAnswers.drop 1
          pinReads := s.pinReads + 1 }) := by
  simp [probeOne, writeByte_eq, busStart_eq, busStop_eq, wiresSet_wiresSet, txnEvents, bytesEvents, levelAt]

/-- All eight bits of a byte are 1 exactly when it is 0xFF. -/
theorem bitsMsbFirst_all (b : Byte) : (bitsMsbFirst b).all id = decide (b = 0xFF) := by
  revert b
  decide

/-- What the probe does (R114, R201), by the first two data-wire samples. -/
theorem probe_eq (P : Params) (s : State) :
    probe P s = 
    if levelAt s datPin 0 = true then
      if levelAt s datPin 1 = true then
      { s with
        displayPresent := false
        probed := true
        owner := .sampler
        res := false
        pinMode := wiresSet s.pinMode .plain .plain
        latchClk := false
        latchDat := false
        trace := s.trace ++ txnEvents (levelAt s datPin) 0 P.addrA [] ++
          txnEvents (levelAt s datPin) 1 P.addrB [] ++ [.inp clkPin, .inp datPin]
        pinAnswers := s.pinAnswers.drop 2
        pinReads := s.pinReads + 2 }
      else 
        { s with
          dispAddr := P.addrB
          displayPresent := true
          probed := true
          res := true
          pinMode := wiresSet s.pinMode .pullUp .pullUp
          latchClk := false
          latchDat := false
          trace := s.trace ++ txnEvents (levelAt s datPin) 0 P.addrA [] ++
            txnEvents (levelAt s datPin) 1 P.addrB []
          pinAnswers := s.pinAnswers.drop 2
          pinReads := s.pinReads + 2 }
    else 
        { s with
          dispAddr := P.addrA
          displayPresent := true
          probed := true
          res := true
          pinMode := wiresSet s.pinMode .pullUp .pullUp
          latchClk := false
          latchDat := false
          trace := s.trace ++ txnEvents (levelAt s datPin) 0 P.addrA []
          pinAnswers := s.pinAnswers.drop 1
          pinReads := s.pinReads + 1 } := by
  have hl : ∀ i, levelAt (probeOne P P.addrA s).2 datPin i = levelAt s datPin (1 + i) := fun i =>
    levelAt_after datPin 1 i (by simp [probeOne_eq]) (by simp [probeOne_eq])
  have hshift : txnEvents (levelAt (probeOne P P.addrA s).2 datPin) 0 P.addrB [] = txnEvents (levelAt s datPin) 1 P.addrB [] := by
    simp [txnEvents, bytesEvents, hl]
  have h1 : (probeOne P P.addrA s).1 = !levelAt s datPin 0 := by simp [probeOne_eq]
  have h2 : (probeOne P P.addrB (probeOne P P.addrA s).2).1 = !levelAt s datPin 1 := by rw [probeOne_eq]; simp [hl]
  unfold probe probeFrom probeFrom probeFrom
  simp only [h1, h2]
  cases h0 : levelAt s datPin 0 <;> cases h1 : levelAt s datPin 1 <;> simp
  · simp [probeFound, probeOne_eq]
  · simp [probeFound, probeOne_eq]
  · rw [probeOne_eq P P.addrB, hshift]
    simp [probeFound, probeOne_eq, wiresSet_wiresSet]
  · rw [probeOne_eq P P.addrB, hshift]
    simp [probeFailed, toInput, emit, setPinMode, Wire.pin, probeOne_eq, wiresSet_wiresSet, wiresSet_set_clk, wiresSet_set_dat]

/-- The address byte carries the address in bits 7 to 1 and the write bit 0 (30_encoding.md R86), so the reference
responder acknowledges it exactly for a device that is present (R120). -/
theorem responderSelects_addressByte (present : List DeviceAddr) (a : DeviceAddr) :
    responderSelects present (addressByte a) = decide (a ∈ present) := by
  have h1 : (addressByte a).extractLsb' 1 7 = a := by
    revert a
    decide
  have h2 : (addressByte a).getLsbD 0 = false := by
    revert a
    decide
  rw [responderSelects, h1, h2, Bool.not_false, Bool.and_true]

/-! ### Pin groups (10_state.md R34, 30_encoding.md R74) -/

theorem mem_pinsOfMask (m : BitVec 10) (p : InPin) : p ∈ pinsOfMask m ↔ m.getLsbD p.val = true := by
  simp [pinsOfMask]

/-- When RDS may not read its pin. -/
theorem ownedByDriver_single (p : InPin) (s : State) :
    ownedByDriver [p] s = true ↔ s.owner = .driver ∧ (p = clkPin ∨ p = datPin) := by
  simp [ownedByDriver, isWirePin, clkPin, datPin]

/-- When ROR may not read its group. -/
theorem ownedByDriver_mask (m : BitVec 10) (s : State) :
    ownedByDriver (pinsOfMask m) s = true ↔ s.owner = .driver ∧ (m.getLsbD 7 = true ∨ m.getLsbD 8 = true) := by
  simp only [ownedByDriver, isWirePin, Bool.and_eq_true, decide_eq_true_eq, List.any_eq_true, mem_pinsOfMask,
    Bool.or_eq_true]
  refine and_congr_right fun _ => ?_
  constructor
  · rintro ⟨p, hp, rfl | rfl⟩
    · exact .inl hp
    · exact .inr hp
  · rintro (h | h)
    · exact ⟨7, h, .inl rfl⟩
    · exact ⟨8, h, .inr rfl⟩

end Sys2Proof.Machine
end

