-- ==== Sys2Proof/Laws/Session.lean ====
section
/-! SUPPORT. Sys2Proof/Laws/Session.lean: for the shared operations of the Configuration State Machine, the Display
Controller's flush and the sequencer's parts one equation each that says everything it does. -/

namespace Sys2Proof

/-- A family's code names the family (30_encoding.md R84). -/
@[simp] theorem Family.ofByte_code (f : Family) : Family.ofByte f.code = some f := by
  cases f <;> rfl

/-- A family's code is 0 to 4. -/
theorem Family.code_le (f : Family) : f.code.toNat ≤ 4 := by
  cases f <;> decide

/-- The next family's code is one more, modulo 5 (45_config_fsm.md R172). -/
theorem Family.code_next (f : Family) : f.next.code.toNat = (f.code.toNat + 1) % 5 := by
  cases f <;> rfl

/-- Five advances close the cycle (R174). -/
theorem Family.next_five (f : Family) : f.next.next.next.next.next = f := by
  cases f <;> rfl

theorem Family.code_next_ne (f : Family) : f.code ≠ f.next.code := by
  cases f <;> decide

/-- A byte 0 to 4 is the code of a family (R84). -/
theorem Family.ofByte_le {v : Byte} (h : v.toNat ≤ 4) : ∃ f, Family.ofByte v = some f ∧ f.code = v := by
  have hv : v = BitVec.ofNat 8 v.toNat := by simp
  generalize hn : v.toNat = n at h hv
  subst hv
  interval_cases n
  · exact ⟨.andNand, rfl, rfl⟩
  · exact ⟨.orNor, rfl, rfl⟩
  · exact ⟨.xorXnor, rfl, rfl⟩
  · exact ⟨.majMin, rfl, rfl⟩
  · exact ⟨.dualNot, rfl, rfl⟩

/-- A byte 5 to 255 is the code of no family (R84). -/
theorem Family.ofByte_gt {v : Byte} (h : 5 ≤ v.toNat) : Family.ofByte v = none := by
  unfold Family.ofByte
  split <;> first | rfl | omega

namespace Machine

/-- What `nvUpdate` does: one read, and one write if the byte differs (R173). -/
theorem nvUpdate_eq (P : Params) (v : Byte) (s : State) :
    nvUpdate P v s =
      { s with
        nv := v
        trace := s.trace ++ [.nvr P.nvAddr s.nv] ++ (if s.nv = v then [] else [.nvw P.nvAddr v]) } := by
  unfold nvUpdate nvRead
  by_cases h : s.nv = v
  · subst h
    simp [emit]
  · simp [emit, h]

/-- What CLOAD does (R171). -/
theorem loadFamily_eq (P : Params) (s : State) :
    loadFamily P s =
      { s with
        family := (Family.ofByte s.nv).getD P.factoryDefault
        familySet := true
        trace := s.trace ++ [.nvr P.nvAddr s.nv] } := by
  unfold loadFamily nvRead
  cases h : Family.ofByte s.nv <;> simp [emit, h]

/-- What CSTEP does without an edge (R172). -/
theorem buttonStep_noEdge (P : Params) {b : Bool} {s : State} (h : risingEdge b s = false) :
    buttonStep P b s = { s with prevBtn := b } := by
  simp [buttonStep, h]

/-- What CSTEP does on an edge (R172). -/
theorem buttonStep_edge (P : Params) {b : Bool} {s : State} (h : risingEdge b s = true) :
    buttonStep P b s =
      { s with
        prevBtn := b
        family := s.family.next
        nv := s.family.next.code
        trace := s.trace ++ [.nvr P.nvAddr s.nv] ++
          (if s.nv = s.family.next.code then [] else [.nvw P.nvAddr s.family.next.code]) } := by
  simp [buttonStep, h, nvUpdate_eq]

/-- What BOOT's pin modes are (46_sequencer_and_clients.md R180). -/
theorem allPinsPlain_eq (s : State) : allPinsPlain s = { s with pinMode := Vector.replicate 10 .plain } := by
  have key (v : Vector PinMode 10) : (List.finRange 10).foldl (fun v (p : InPin) => v.set p.val .plain p.isLt) v =
      Vector.replicate 10 .plain := by
    apply Vector.ext
    intro i hi
    simp only [List.finRange, List.ofFn, Fin.foldr, Fin.foldr.loop, List.foldl]
    interval_cases i <;> simp
  have fold (ps : List InPin) (s : State) : ps.foldl (fun s p => setPinMode p .plain s) s =
      { s with pinMode := ps.foldl (fun v (p : InPin) => v.set p.val .plain p.isLt) s.pinMode } := by
    induction ps generalizing s with
    | nil => rfl
    | cons p ps ih => rw [List.foldl_cons, ih]; rfl
  rw [allPinsPlain, fold, key]

/-- A row sampled when the next read is number `n` from `s0`. -/
theorem rowOr_from (ps : List InPin) (s s0 : State) (n : Nat)
    (ha : s.pinAnswers = s0.pinAnswers.drop n) (hr : s.pinReads = s0.pinReads + n) :
    rowOr Config.params ps s =
      (rowValue s0 n ps,
        { s with
          trace := s.trace ++ rowEvents s0 n ps
          pinAnswers := s0.pinAnswers.drop (afterRow s0 n ps)
          pinReads := s0.pinReads + afterRow s0 n ps }) := by
  rw [rowOr, rowOrFrom_eq Config.params ps false s s0 n ha hr]
  simp [rowValue, rowEvents, afterRow, ha, hr, Nat.add_assoc]

/-- What sampling rows 1 to 3 does (R182). -/
theorem sampleRows_eq (s : State) :
    sampleRows Config.params s =
      { s with
        in1 := rowValue s 0 row1
        in2 := rowValue s (row2Start s) row2
        in3 := rowValue s (row3Start s) row3
        trace := s.trace ++ rowEvents s 0 row1 ++ rowEvents s (row2Start s) row2 ++ rowEvents s (row3Start s) row3
        pinAnswers := s.pinAnswers.drop (rowsEnd s)
        pinReads := s.pinReads + rowsEnd s } := by
  unfold sampleRows
  rw [rowOr_from row1 s s 0 (by simp) (by simp)]
  dsimp only
  rw [rowOr_from row2 _ s (row2Start s) (by simp [row2Start]) (by simp [row2Start])]
  dsimp only
  rw [rowOr_from row3 _ s (row3Start s) (by simp [row3Start]) (by simp [row3Start])]
  rfl

/-- What sampling row 4 after them does (R182). -/
theorem sampleRow4_eq (s : State) :
    sampleRow4 Config.params (sampleRows Config.params s) =
      { sampleRows Config.params s with
        in4 := rowValue s (rowsEnd s) row4
        rowsSet := true
        trace := (sampleRows Config.params s).trace ++ rowEvents s (rowsEnd s) row4
        pinAnswers := s.pinAnswers.drop (afterRow s (rowsEnd s) row4)
        pinReads := s.pinReads + afterRow s (rowsEnd s) row4 } := by
  unfold sampleRow4
  rw [rowOr_from row4 _ s (rowsEnd s) (by simp [sampleRows_eq]) (by simp [sampleRows_eq])]

/-- What sampling the button after rows 1 to 3 does (R182). -/
theorem sampleButton_eq (s : State) :
    sampleButton Config.params (sampleRows Config.params s) =
      buttonStep Config.params (cycleButton s)
        { sampleRows Config.params s with
          in4 := false
          rowsSet := true
          trace := (sampleRows Config.params s).trace ++ [.rd buttonPin (levelAt s buttonPin (rowsEnd s)),
            .rd buttonPin (levelAt s buttonPin (rowsEnd s + 1)), .rd buttonPin (levelAt s buttonPin (rowsEnd s + 2))]
          pinAnswers := s.pinAnswers.drop (rowsEnd s + 3)
          pinReads := s.pinReads + (rowsEnd s + 3) } := by
  have hl (i : Nat) : levelAt { sampleRows Config.params s with in4 := false, rowsSet := true } buttonPin i =
      levelAt s buttonPin (rowsEnd s + i) :=
    levelAt_after buttonPin (rowsEnd s) i (by simp [sampleRows_eq]) (by simp [sampleRows_eq])
  unfold sampleButton
  rw [readStable_eq]
  simp only [hl, Nat.add_zero]
  rw [cycleButton, debouncedAt]
  congr 2 <;> simp [sampleRows_eq, Nat.add_assoc]

/-- What a flush does: the window frame and the data frame (42_display_controller.md R137). -/
theorem flushFrame_eq (P : Params) (s : State) :
    flushFrame P s =
      { s with
        pinMode := wiresSet s.pinMode .pullUp .pullUp
        latchClk := false
        latchDat := false
        trace := s.trace ++ txnEvents (levelAt s datPin) 0 s.dispAddr (P.cmdPrefix ++ P.winSeq) ++
          txnEvents (levelAt s datPin) ((P.cmdPrefix ++ P.winSeq).length + 1) s.dispAddr
            (P.dataPrefix ++ frameBytes s.fb)
        pinAnswers := s.pinAnswers.drop
          ((P.cmdPrefix ++ P.winSeq).length + 1 + ((P.dataPrefix ++ frameBytes s.fb).length + 1))
        pinReads := s.pinReads +
          ((P.cmdPrefix ++ P.winSeq).length + 1 + ((P.dataPrefix ++ frameBytes s.fb).length + 1)) } := by
  generalize hw : P.cmdPrefix ++ P.winSeq = w
  have h1 := txn_eq P s.dispAddr w s 0 (levelAt s datPin) (by simp)
  have hl (i : Nat) : levelAt s datPin (w.length + 1 + i) = levelAt (txn P s.dispAddr w s) datPin i :=
    (levelAt_after datPin (w.length + 1) i (by simp [h1]) (by simp [h1])).symm
  simp only [flushFrame, hw]
  have h2 := txn_eq P (txn P s.dispAddr w s).dispAddr (P.dataPrefix ++ frameBytes (txn P s.dispAddr w s).fb)
    (txn P s.dispAddr w s) (w.length + 1) (levelAt s datPin) hl
  rw [h2]
  simp [h1, wiresSet_wiresSet, List.append_assoc, Nat.add_assoc]

/-- DINIT's frame, its samples numbered from `n` (42_display_controller.md R131). -/
theorem initDisplay_eq (s : State) (n : Nat) (samples : Nat → Bool)
    (h : ∀ i, samples (n + i) = levelAt s datPin i) :
    initDisplay Config.params s =
      { s with
        pinMode := wiresSet s.pinMode .pullUp .pullUp
        latchClk := false
        latchDat := false
        trace := s.trace ++ txnEvents samples n s.dispAddr initBytes
        pinAnswers := s.pinAnswers.drop (initBytes.length + 1)
        pinReads := s.pinReads + (initBytes.length + 1) } :=
  txn_eq Config.params s.dispAddr initBytes s n samples h

/-- The data frame of DFLUSH in claims' terms and in the operation's are the same (R137). -/
theorem dataBytes_eq (m : Memory) : dataBytes m = Config.params.dataPrefix ++ frameBytes m := rfl

/-- The events of `nvUpdate` in one list (R173). -/
theorem nvUpdate_trace (v : Byte) (s : State) :
    (nvUpdate Config.params v s).trace = s.trace ++ updateEvents s.nv v := by
  simp [nvUpdate_eq, updateEvents]

/-- What `nvUpdate` leaves in the store (R173). -/
theorem nvUpdate_nv (P : Params) (v : Byte) (s : State) : (nvUpdate P v s).nv = v := by
  simp [nvUpdate_eq]

/-- What BOOT does before the probe: no event but the store read, no answer used (R180). -/
theorem bootPrepared_eq (P : Params) (s : State) :
    loadFamily P (allPinsPlain s) =
      { s with
        pinMode := Vector.replicate 10 .plain
        family := (Family.ofByte s.nv).getD P.factoryDefault
        familySet := true
        trace := s.trace ++ [.nvr P.nvAddr s.nv] } := by
  rw [loadFamily_eq, allPinsPlain_eq]

/-- A CYCLE with a display, in parts (46_sequencer_and_clients.md R182). -/
theorem runCycle_display (P : Params) {s : State} (h : s.displayPresent = true) :
    runCycle P s = showFrame P (evalGate (sampleButton P (sampleRows P s))) := by
  simp [runCycle, h]

/-- A CYCLE without a display, in parts (R182). -/
theorem runCycle_noDisplay (P : Params) {s : State} (h : s.displayPresent = false) :
    runCycle P s = evalGate (sampleRow4 P (sampleRows P s)) := by
  simp [runCycle, h]

/-! ### Raw writes of the store in a trace (20_memory.md R65) -/

@[simp] theorem rawWrites_nil : rawWrites [] = 0 := rfl

@[simp] theorem rawWrites_append (a b : List Event) : rawWrites (a ++ b) = rawWrites a + rawWrites b := by
  simp [rawWrites]

@[simp] theorem rawWrites_nvw (a : Nat) (v : Byte) (es : List Event) :
    rawWrites (.nvw a v :: es) = rawWrites es + 1 := rfl
@[simp] theorem rawWrites_rd (p : InPin) (v : Bool) (es : List Event) :
    rawWrites (.rd p v :: es) = rawWrites es := rfl
@[simp] theorem rawWrites_rel (p : InPin) (es : List Event) :
    rawWrites (.rel p :: es) = rawWrites es := rfl
@[simp] theorem rawWrites_low (p : InPin) (es : List Event) :
    rawWrites (.low p :: es) = rawWrites es := rfl
@[simp] theorem rawWrites_inp (p : InPin) (es : List Event) :
    rawWrites (.inp p :: es) = rawWrites es := rfl
@[simp] theorem rawWrites_out (p : OutPin) (v : Bool) (es : List Event) :
    rawWrites (.out p v :: es) = rawWrites es := rfl
@[simp] theorem rawWrites_nvr (a : Nat) (v : Byte) (es : List Event) :
    rawWrites (.nvr a v :: es) = rawWrites es := rfl

@[simp] theorem rawWrites_bytesEvents (f : Nat → Bool) (n : Nat) (bs : List Byte) :
    rawWrites (bytesEvents f n bs) = 0 := by
  induction bs generalizing n with
  | nil => rfl
  | cons b bs ih =>
    have bit (v : Bool) : rawWrites (bitEvents v) = 0 := by
      cases v <;> rfl
    have h : rawWrites (byteEvents b (f n)) = 0 := by
      simp [byteEvents, bit]
    rw [bytesEvents, rawWrites_append, ih, h]

/-- A transaction writes no byte of the store. -/
@[simp] theorem rawWrites_txnEvents (f : Nat → Bool) (n : Nat) (a : DeviceAddr) (bs : List Byte) :
    rawWrites (txnEvents f n a bs) = 0 := by
  simp only [txnEvents, rawWrites_append, rawWrites_bytesEvents]
  rfl

@[simp] theorem rawWrites_sampleEvents (s : State) (n : Nat) (ps : List InPin) :
    rawWrites (sampleEvents s n ps) = 0 := by
  induction ps generalizing n with
  | nil => rfl
  | cons p ps ih =>
    rw [sampleEvents, rawWrites_append, ih]
    rfl

/-- Sampling a row writes no byte of the store. -/
@[simp] theorem rawWrites_rowEvents (s : State) (n : Nat) (ps : List InPin) : rawWrites (rowEvents s n ps) = 0 :=
  rawWrites_sampleEvents _ _ _

end Machine

end Sys2Proof
end

