-- ==== Sys2Proof/Tests/Slice0.lean ====
section
/-! SUPPORT. Sys2Proof/Tests/Slice0.lean: the model against vectors of 95_test_vectors.md (its vector names stand in the
comments), the ill-formed terms WellFormed refuses, the words of section 9, and for every obligation with hypotheses a
state and operands that meet them. -/

namespace Sys2Proof.Tests

open Sys2Proof.Machine

/-! ### Helpers -/

/-- The test font `TF` of 95_test_vectors.md. -/
def testFont : List FontEntry :=
  [⟨0x31, #v[0x00, 0x42, 0x7F, 0x40, 0x00]⟩, ⟨0x41, #v[0x7E, 0x11, 0x11, 0x11, 0x7E]⟩,
    ⟨0x80, #v[0xFF, 0x80, 0x00, 0x80, 0xFF]⟩, ⟨0x41, #v[0xFF, 0xFF, 0xFF, 0xFF, 0xFF]⟩]

/-- The parameters of the vectors: the illustrative values of 93_implementation_defined.md G7, `INIT_SEQ = [0xAF]`,
`FACTORY_DEFAULT = 2`, an empty diagram. -/
def P : Params where
  factoryDefault := .xorXnor
  nvAddr := 0
  addrA := 0x3C
  addrGap := 0
  initSeq := [0xAF]
  winSeq := [0x21, 0x00, 0x7F, 0x22, 0x00, 0x07]
  cmdPrefix := [0x00]
  dataPrefix := [0x40]
  font := testFont
  glyphAdvancePred := 5
  shortCircuit := true
  diagram := fun _ _ _ _ _ _ => []
  tSample := 0
  tBit := 0
  tWarmup := 0

/-- A field of the next state, if there is one. -/
def seen {α : Type} (f : State → α) : Result → Option α
  | .next t => some (f t)
  | .fault _ => none
  | .refused _ => none

/-- Why an operation was refused, if it was. -/
def why : Result → Option Refusal
  | .next _ => none
  | .fault _ => none
  | .refused r => some r

/-- A reset that finds the byte `v` in the store, and the environment's first answers. -/
def fresh (v : Byte) (answers : List Bool) : State := { State.resetWith v with pinAnswers := answers }

/-- A session with a display, its family loaded, its rows sampled, its framebuffer cleared. -/
def withDisplay : State :=
  { fresh 4 [] with
    family := .dualNot
    familySet := true
    displayPresent := true
    probed := true
    dispAddr := Config.params.addrA
    rowsSet := true
    fbCleared := true }

/-- A session without a display, its family loaded, its rows sampled. -/
def withoutDisplay : State :=
  { fresh 4 [] with family := .dualNot, familySet := true, probed := true, rowsSet := true, owner := .sampler }

/-! ### WellFormed (30_encoding.md R74) -/

/-- A DTEXT of 256 characters has no count byte. -/
theorem test_wellFormed_refuses_256_characters :
    (Instr.dtext 0 0 1 (List.replicate 256 0x41)).wellFormed = false := by decide +kernel

theorem test_wellFormed_takes_255_characters :
    (Instr.dtext 0 0 1 (List.replicate 255 0x41)).wellFormed = true := by decide +kernel

/-! ### Decode (section 9) -/

/-- The instruction read from a word and nothing left over. -/
def reads (bytes : List Byte) (i : Instr) : Bool :=
  match decode bytes with
  | .ok (j, rest) => decide (j = i ∧ rest = [])
  | .error _ => false

/-- Why a word is refused. -/
def decodeFails (bytes : List Byte) : Option DecodeError :=
  match decode bytes with
  | .ok _ => none
  | .error e => some e

theorem test_decode_boot : reads [0x01] .boot = true := by decide
theorem test_decode_cycle : reads [0x02] .cycle = true := by decide
theorem test_decode_rds : reads [0x10, 0x09] (.rds 9) = true := by decide
theorem test_decode_ror_row2 : reads [0x11, 0x00, 0x18] (.ror 0x018) = true := by decide
theorem test_decode_ror_row4 : reads [0x11, 0x03, 0x80] (.ror 0x380) = true := by decide
theorem test_decode_bstart : reads [0x20] .bstart = true := by decide
theorem test_decode_bstop : reads [0x21] .bstop = true := by decide
theorem test_decode_bwrite : reads [0x22, 0x78] (.bwrite 0x78) = true := by decide
theorem test_decode_bprobe : reads [0x23] .bprobe = true := by decide
theorem test_decode_dinit : reads [0x30] .dinit = true := by decide
theorem test_decode_dclear : reads [0x31] .dclear = true := by decide
theorem test_decode_dsetpix : reads [0x32, 0xFF, 0xFF, 0x00, 0x00, 0x01] (.dsetpix (-1) 0 true) = true := by decide
theorem test_decode_dhline : reads [0x33, 0xFF, 0xFB, 0x00, 0x02, 0x00, 0x00] (.dhline (-5) 2 0) = true := by decide
theorem test_decode_dvline : reads [0x34, 0x00, 0x07, 0x00, 0x06, 0x00, 0x09] (.dvline 7 6 9) = true := by decide
theorem test_decode_dflush : reads [0x35] .dflush = true := by decide
theorem test_decode_dchar :
    reads [0x40, 0xFF, 0xFE, 0xFF, 0xFD, 0x01, 0x41] (.dchar (-2) (-3) 1 0x41) = true := by decide
theorem test_decode_dtext :
    reads [0x41, 0x00, 0x0A, 0x00, 0x14, 0x02, 0x03, 0x41, 0x4E, 0x44] (.dtext 10 20 2 [0x41, 0x4E, 0x44]) =
      true := by decide
theorem test_decode_geval : reads [0x50] .geval = true := by decide
theorem test_decode_cload : reads [0x60] .cload = true := by decide
theorem test_decode_cstep : reads [0x61, 0x01] (.cstep true) = true := by decide
theorem test_decode_nvupd : reads [0x62, 0x03] (.nvupd 3) = true := by decide

/-- Every reserved operation code, at both ends of each reserved range. -/
theorem test_decode_refuses_reserved_codes :
    [0x00, 0x03, 0x0F, 0x12, 0x1F, 0x24, 0x2F, 0x36, 0x3F, 0x42, 0x4F, 0x51, 0x5F, 0x63, 0xFF].map
      (fun b : Byte => decodeFails [b]) =
    [0x00, 0x03, 0x0F, 0x12, 0x1F, 0x24, 0x2F, 0x36, 0x3F, 0x42, 0x4F, 0x51, 0x5F, 0x63, 0xFF].map
      (fun b : Byte => some (.reservedCode b)) := by decide

theorem test_decode_refuses_reserved_operands :
    decodeFails [0x10, 0x0A] = some .reservedPin ∧ decodeFails [0x10, 0x0F] = some .reservedPin ∧
    decodeFails [0x10, 0x10] = some .nonzeroPadding ∧ decodeFails [0x10, 0x19] = some .nonzeroPadding ∧
    decodeFails [0x11, 0x04, 0x00] = some .nonzeroPadding ∧ decodeFails [0x61, 0x02] = some .nonzeroPadding ∧
    decodeFails [0x32, 0x00, 0x05, 0x00, 0x0A, 0x03] = some .nonzeroPadding ∧
    decodeFails [0x22] = some .truncated := by decide

/-- A table word is read with its operation code on top (log 2), and a DTEXT head gets its announced characters. -/
theorem test_decodeTableWord :
    decodeTableWord 16 0x1009 = some (.rds 9) ∧ decodeTableWord 56 0x33FFFB00020000 = some (.dhline (-5) 2 0) ∧
    decodeTableWord 56 0x41000A00140202 = some (.dtext 10 20 2 [0, 0]) ∧ decodeTableWord 8 0x03 = none := by decide

theorem test_step_runs_the_placed_word :
    seen (fun t => (t.fb, t.fbCleared, t.commands)) (step (withDisplay.withFetchWord 48 0x320005000A01)) =
      some ([(133, 0x04)], true, []) := by decide

/-! ### Sampler (section 2) -/

/-- M5 and M4: samples 1 0 1 and 1 0 0. -/
theorem test_rds_majority :
    seen (fun t => (t.res, t.trace.length, t.pinReads)) (exec (.rds 9) (fresh 0 [true, false, true])) =
      some (true, 3, 3) ∧
    seen (fun t => t.res) (exec (.rds 0) (fresh 0 [true, false, false])) = some false := by decide

/-- R34: RDS CLK is refused while the driver owns it, RDS IP9 is not. -/
theorem test_rds_ownership :
    why (exec (.rds 7) (fresh 0 [])) = some .pinOwnedByDriver ∧ why (exec (.rds 9) (fresh 0 [])) = none := by decide

/-- O7, with the short circuit: IP0 glitches, IP1 is debounced to 1, IP2 is not read. -/
theorem test_ror_glitch :
    ((rowOr P [0, 1, 2] (fresh 0 [true, false, false, false, true, true])).1,
      (rowOr P [0, 1, 2] (fresh 0 [true, false, false, false, true, true])).2.trace) =
    (true, [.rd 0 true, .rd 0 false, .rd 0 false, .rd 1 false, .rd 1 true, .rd 1 true]) := by decide

/-- O2 without the short circuit reads all three pins; O9: row 4 is refused before any read. -/
theorem test_ror_reads_and_refusal :
    (rowOr { P with shortCircuit := false } [0, 1, 2] (fresh 0 (List.replicate 3 true ++ List.replicate 6 false))).2.pinReads
      = 9 ∧
    why (exec (.ror 0x380) (fresh 0 [])) = some .pinOwnedByDriver := by decide

/-! ### Bit-Protocol Driver (section 4) -/

/-- B1. -/
theorem test_bstart :
    (busStart P (fresh 0 [])).trace = [.rel 8, .rel 7, .low 8, .low 7] ∧
    (busStart P (fresh 0 [])).pinMode[clkPin] = .output ∧ (busStart P (fresh 0 [])).pinMode[datPin] = .output := by
  decide

/-- B3. -/
theorem test_bstop :
    (busStop P (fresh 0 [])).trace = [.low 8, .rel 7, .rel 8] ∧
    (busStop P (fresh 0 [])).pinMode[clkPin] = .pullUp ∧ (busStop P (fresh 0 [])).pinMode[datPin] = .pullUp := by
  decide

/-- B2: the byte 0x78, acknowledged. -/
theorem test_bwrite_78 :
    (writeByte P 0x78 (fresh 0 [false])).1 = true ∧
    (writeByte P 0x78 (fresh 0 [false])).2.trace =
      [.low 8, .rel 7, .low 7] ++ (List.replicate 4 [.rel 8, .rel 7, .low 7]).flatten ++
      (List.replicate 3 [.low 8, .rel 7, .low 7]).flatten ++ [.rel 8, .rel 7, .rd 8 false, .low 7] := by decide

/-- B6. -/
theorem test_bwrite_needs_the_wires : why (exec (.bwrite 0x78) withoutDisplay) = some .wiresOwnedBySampler := by decide

/-- PR2: the second candidate answers. -/
theorem test_bprobe_second :
    (probe P (fresh 0 [true, false])).displayPresent = true ∧ (probe P (fresh 0 [true, false])).dispAddr = 0x3D ∧
    (probe P (fresh 0 [true, false])).trace.length = 70 ∧ (probe P (fresh 0 [true, false])).owner = .driver ∧
    addressByte 0x3C = 0x78 ∧ addressByte 0x3D = 0x7A := by decide

/-- PR4: nobody answers. -/
theorem test_bprobe_none :
    (probe P (fresh 0 [true, true])).displayPresent = false ∧ (probe P (fresh 0 [true, true])).owner = .sampler ∧
    (probe P (fresh 0 [true, true])).trace.length = 72 ∧
    (probe P (fresh 0 [true, true])).pinMode = Vector.replicate 10 .plain := by decide

/-! ### Display Controller (section 5) -/

/-- F1: 91 events, and the byte on the wire after the address is the prefix. -/
theorem test_dinit :
    (initDisplay P { fresh 0 [] with dispAddr := 0x3C }).trace.length = 91 ∧
    (initDisplay P { fresh 0 [] with dispAddr := 0x3C }).trace.length =
      (txnEvents (fun _ => true) 0 0x3C [0x00, 0xAF]).length := by decide +kernel

theorem test_dinit_needs_a_display : why (exec .dinit (fresh 0 [])) = some .noDisplay := by decide

theorem test_dclear :
    seen (fun t => (t.fb, t.fbCleared)) (exec .dclear { withDisplay with fb := [(5, 1)] }) = some ([], true) := by decide

/-- X4, X5, X17: set and clear one bit. -/
theorem test_dsetpix :
    seen (fun t => t.fb) (exec (.dsetpix 127 63 true) withDisplay) = some [(1023, 0x80)] ∧
    seen (fun t => t.fb) (exec (.dsetpix 5 10 true) withDisplay) = some [(133, 0x04)] ∧
    seen (fun t => t.fb) (exec (.dsetpix 5 10 false) { withDisplay with fb := [(133, 0xFF)] }) =
      some [(133, 0xFB)] := by decide

/-- X9 to X12: just off the screen, on each side. -/
theorem test_dsetpix_off_screen :
    [(128, 0), (-1, 0), (0, 64), (0, -1)].map
      (fun p : Coord × Coord => seen (fun t => t.fb) (exec (.dsetpix p.1 p.2 true) (fresh 0 []))) =
    List.replicate 4 (some []) := by decide

/-- H3 and H5. -/
theorem test_dhline :
    seen (fun t => t.fb) (exec (.dhline (-5) 2 0) withDisplay) = some [(0, 0x01), (1, 0x01), (2, 0x01)] ∧
    seen (fun t => t.fb) (exec (.dhline 7 7 8) withDisplay) = some [(135, 0x01)] := by decide

/-- H1 = H2 on a short segment: the endpoints are ordered. -/
theorem test_dhline_reversed :
    seen (fun t => t.fb) (exec (.dhline 23 20 3) withDisplay) =
      some [(20, 0x08), (21, 0x08), (22, 0x08), (23, 0x08)] := by decide

/-- V2 = V3. -/
theorem test_dvline :
    seen (fun t => t.fb) (exec (.dvline 7 6 9) withDisplay) = some [(7, 0xC0), (135, 0x03)] ∧
    seen (fun t => t.fb) (exec (.dvline 7 9 6) withDisplay) = some [(7, 0xC0), (135, 0x03)] := by decide

/-- V5 and V7. -/
theorem test_dvline_clipped :
    seen (fun t => t.fb) (exec (.dvline 127 60 70) withDisplay) = some [(1023, 0xF0)] ∧
    seen (fun t => t.fb) (exec (.dvline (-1) 0 63) withDisplay) = some [] := by decide

/-- The data frame holds the 1024 bytes in address order. -/
theorem test_dflush_frame :
    (frameBytes [(0, 0x07), (1023, 0x09)]).length = 1024 ∧ (frameBytes [(0, 0x07), (1023, 0x09)])[0]? = some 0x07 ∧
    (frameBytes [(0, 0x07), (1023, 0x09)])[1023]? = some 0x09 := by decide +kernel

/-- F3 and F4. -/
theorem test_dflush_refused :
    why (exec .dflush (fresh 0 [])) = some .noDisplay ∧
    why (exec .dflush { withDisplay with fbCleared := false }) = some .framebufferUnwritten := by decide

/-! ### Text renderer (section 6) -/

/-- GL2 and GL6: the first "A" of the font; clipped left and top. -/
theorem test_dchar :
    paint (charPixels P 3 5 1 0x41) true [] =
      [(3, 0xC0), (4, 0x20), (5, 0x20), (6, 0x20), (7, 0xC0), (131, 0x0F), (132, 0x02), (133, 0x02), (134, 0x02),
        (135, 0x0F)] ∧
    paint (charPixels P (-2) (-3) 1 0x41) true [] = [(0, 0x02), (1, 0x02), (2, 0x0F)] := by decide +kernel

/-- GL3 and GL8: scale 2; bit 7 of a column is not drawn. -/
theorem test_dchar_scale_and_bit_7 :
    paint (charPixels P 0 0 2 0x31) true [] =
      [(2, 0x0C), (3, 0x0C), (4, 0xFF), (5, 0xFF), (130, 0x30), (131, 0x30), (132, 0x3F), (133, 0x3F), (134, 0x30),
        (135, 0x30)] ∧
    paint (charPixels P 0 0 1 0x80) true [] = [(0, 0x7F), (4, 0x7F)] := by decide +kernel

/-- TX1: the unmapped character keeps its place. -/
theorem test_dtext_unmapped :
    paint (textPixels P 0 0 1 [0x31, 0x3F, 0x31]) true [] =
      [(1, 0x42), (2, 0x7F), (3, 0x40), (13, 0x42), (14, 0x7F), (15, 0x40)] ∧
    conditionsOf P (.dtext 0 0 1 [0x31, 0x3F, 0x31]) (fresh 0 []) = [.e4] := by decide +kernel

/-- TX6: another advance; TX7: scale 0 is refused. -/
theorem test_dtext_advance :
    paint (textPixels { P with glyphAdvancePred := 4 } 0 0 1 [0x31, 0x31]) true [] =
      [(1, 0x42), (2, 0x7F), (3, 0x40), (6, 0x42), (7, 0x7F), (8, 0x40)] ∧
    why (exec (.dtext 0 0 0 [0x31]) withDisplay) = some .scaleZero := by decide +kernel

/-! ### Gate Engine (section 3) -/

/-- The outputs of a family over rows given as `in[1] in[2] in[3] ...`, read as numbers `2 * Y + Yb`. -/
def outputs (f : Family) (n : Nat) : List Nat :=
  (List.range (2 ^ n)).map fun i =>
    let r := gate f ((List.range n).map fun j => i.testBit (n - 1 - j))
    2 * r.1.toNat + r.2.toNat

/-- The whole table for n = 3, rows 000 to 111. -/
theorem test_geval_three_rows :
    outputs .andNand 3 = [1, 1, 1, 1, 1, 1, 1, 2] ∧ outputs .orNor 3 = [1, 2, 2, 2, 2, 2, 2, 2] ∧
    outputs .xorXnor 3 = [1, 2, 2, 1, 2, 1, 1, 2] ∧ outputs .majMin 3 = [1, 1, 1, 2, 1, 2, 2, 2] ∧
    outputs .dualNot 3 = [3, 2, 1, 0, 3, 2, 1, 0] := by decide

/-- The whole table for n = 4, rows 0000 to 1111. -/
theorem test_geval_four_rows :
    outputs .andNand 4 = [1, 1, 1, 1, 1, 1, 1, 1, 1, 1, 1, 1, 1, 1, 1, 2] ∧
    outputs .orNor 4 = [1, 2, 2, 2, 2, 2, 2, 2, 2, 2, 2, 2, 2, 2, 2, 2] ∧
    outputs .xorXnor 4 = [1, 2, 2, 1, 2, 1, 1, 2, 2, 1, 1, 2, 1, 2, 2, 1] ∧
    outputs .majMin 4 = [1, 1, 1, 1, 1, 1, 1, 2, 1, 1, 1, 2, 1, 2, 2, 2] ∧
    outputs .dualNot 4 = [3, 3, 2, 2, 1, 1, 0, 0, 3, 3, 2, 2, 1, 1, 0, 0] := by decide

/-! ### Configuration State Machine (section 7) -/

/-- L2 and L3, at the last family code and just above it. -/
theorem test_cload :
    (loadFamily P (fresh 4 [])).family = .dualNot ∧ (loadFamily P (fresh 5 [])).family = .xorXnor ∧
    (loadFamily P (fresh 5 [])).nv = 5 ∧ (loadFamily P (fresh 5 [])).trace = [.nvr 0 5] ∧
    conditionsOf P .cload (fresh 4 []) = [] ∧ conditionsOf P .cload (fresh 5 []) = [.e2] := by decide

/-- K1. -/
theorem test_cstep_edge :
    (buttonStep P true withDisplay).family = .andNand ∧ (buttonStep P true withDisplay).nv = 0 ∧
    (buttonStep P true withDisplay).prevBtn = true ∧
    (buttonStep P true withDisplay).trace = [.nvr 0 4, .nvw 0 0] := by decide

/-- K2 and K6. -/
theorem test_cstep_held_and_refused :
    seen (fun t => (t.family, t.prevBtn, t.nv, t.trace)) (exec (.cstep true) { withDisplay with prevBtn := true }) =
      some (.dualNot, true, 4, []) ∧
    why (exec (.cstep true) withoutDisplay) = some .noButton := by decide

/-- W1 and W2. -/
theorem test_nvupd :
    ((nvUpdate P 1 (fresh 3 [])).nv, (nvUpdate P 1 (fresh 3 [])).trace) = (1, [.nvr 0 3, .nvw 0 1]) ∧
    ((nvUpdate P 3 (fresh 3 [])).nv, (nvUpdate P 3 (fresh 3 [])).trace) = (3, [.nvr 0 3]) := by decide

/-! ### BOOT and CYCLE (sections 8 and 10) -/

/-- Q1: no display, a cold store. -/
theorem test_boot_without_display :
    (bootSession P (fresh 0xFF [true, true])).family = .xorXnor ∧
    (bootSession P (fresh 0xFF [true, true])).owner = .sampler ∧
    (bootSession P (fresh 0xFF [true, true])).trace.length = 73 ∧
    conditionsOf P .boot (fresh 0xFF [true, true]) = [.e2, .e1] := by decide

/-- Q2: a display at the second address. -/
theorem test_boot_with_display :
    (bootSession P (fresh 4 [true, false])).family = .dualNot ∧
    (bootSession P (fresh 4 [true, false])).dispAddr = 0x3D ∧
    (bootSession P (fresh 4 [true, false])).trace.length = 162 ∧
    (bootSession P (fresh 4 [true, false])).pinMode[datPin] = .pullUp := by decide +kernel

/-- P1, its CYCLE: IP0 and IP3 read 1, every other pin 0; 27 events, exactly two of four rows is no majority. -/
def p1Cycle : State :=
  runCycle P
    { withoutDisplay with
      family := .majMin
      pinAnswers := List.replicate 6 true ++ List.replicate 15 false }

theorem test_cycle_without_display :
    ((p1Cycle.in1, p1Cycle.in2, p1Cycle.in3, p1Cycle.in4), p1Cycle.y, p1Cycle.yb, p1Cycle.trace.length) =
      ((true, true, false, false), false, true, 27) ∧
    p1Cycle.outPin = #v[false, false, false, true, true, true] := by decide

/-- P2, its first CYCLE up to the drawing: the held button advances DUAL_NOT to AND_NAND, the store is written once. -/
theorem test_cycle_with_display :
    let t := evalGate (sampleButton P (sampleRows P
      { withDisplay with pinAnswers := List.replicate 21 false ++ List.replicate 3 true }))
    (t.in4, t.prevBtn, t.family, t.nv, t.y, t.yb, t.trace.length) = (false, true, .andNand, 0, false, true, 32) := by
  decide

/-! ### Witnesses: a state and operands that meet the hypotheses of each obligation -/

theorem test_witness_ResetLeavesTheListedValues : State.resetWith 5 = State.resetWith 5 := rfl

theorem test_witness_StepRunsThePendingCommand :
    let s := { withDisplay with commands := [0x61, 0x00, 0x50] }
    s.commands ≠ [] ∧ decode s.commands = .ok (.cstep false, [0x50]) := ⟨by decide, rfl⟩

theorem test_witness_StepWithoutCommandRunsTheSequencer : withDisplay.commands = [] := rfl

theorem test_witness_StepRunsThePlacedWord : decode (tableBytes 16 0x1009) = .ok (.rds 9, []) := rfl

/-- Each clause of the refusals, at the first and the last value of its range. -/
theorem test_witness_ReservedEncodingsAreRefused :
    (0x03 ≤ (0x03 : Byte).toNat ∧ (0x0F : Byte).toNat ≤ 0x0F ∧ (0x63 : Byte).toNat ≥ 0x63) ∧
    (10 ≤ (0x0A : Byte).toNat ∧ (0x0F : Byte).toNat ≤ 15) ∧ 16 ≤ (0x10 : Byte).toNat ∧ 4 ≤ (0x04 : Byte).toNat ∧
    2 ≤ (0x02 : Byte).toNat ∧
    { withDisplay with commands := [0x10, 0x0A] }.commands = 0x10 :: 0x0A :: [] := by decide

theorem test_witness_DecodeInvertsEncode : (Instr.dtext 0 0 1 [0x41]).wellFormed = true := by decide

theorem test_witness_EncodeInvertsDecode : decode [0x62, 0x03, 0x50] = .ok (.nvupd 3, [0x50]) := rfl

theorem test_witness_RdsTakesTheMajorityOfThreeReads :
    ¬(withDisplay.owner = .driver ∧ ((9 : InPin) = clkPin ∨ (9 : InPin) = datPin)) ∧
    ¬(withoutDisplay.owner = .driver ∧ ((7 : InPin) = clkPin ∨ (7 : InPin) = datPin)) := by decide

theorem test_witness_RorSamplesItsGroupInOrder :
    ¬(withDisplay.owner = .driver ∧ ((0x07F : BitVec 10).getLsbD 7 = true ∨ (0x07F : BitVec 10).getLsbD 8 = true)) ∧
    ¬(withoutDisplay.owner = .driver ∧
      ((0x380 : BitVec 10).getLsbD 7 = true ∨ (0x380 : BitVec 10).getLsbD 8 = true)) := by decide

theorem test_witness_RorIsTheOrOfDebouncedPins :
    let s := { withoutDisplay with pinAnswers := [true, true, false, false, true, false] ++ [true] }
    let samples : InPin → Bool × Bool × Bool := fun p => if p = 3 then (true, true, false) else (false, true, false)
    ¬(s.owner = .driver ∧ ((0x018 : BitVec 10).getLsbD 7 = true ∨ (0x018 : BitVec 10).getLsbD 8 = true)) ∧
    s.pinAnswers =
      (pinsOfMask 0x018).flatMap (fun p => [(samples p).1, (samples p).2.1, (samples p).2.2]) ++ [true] := by decide

theorem test_witness_SamplerIsRefusedTheDriversPins :
    withDisplay.owner = .driver ∧ (0x080 : BitVec 10).getLsbD 7 = true ∧ (0x100 : BitVec 10).getLsbD 8 = true ∧
    { withDisplay with displayPresent := false }.owner = .driver ∧
    { withDisplay with displayPresent := false }.probed = true ∧
    { withDisplay with displayPresent := false }.displayPresent = false := by decide

theorem test_witness_BstartDrivesTheStartSequence : withDisplay.owner = .driver := rfl

theorem test_witness_BstopDrivesTheStopSequence : (fresh 0 []).owner = .driver := rfl

theorem test_witness_BwriteShiftsTheByteAndSamplesTheAcknowledge : (fresh 0 [true]).owner = .driver := rfl

theorem test_witness_BprobeLatchesTheFirstAcknowledge :
    ((fresh 0 [false]).probed = false ∧ (fresh 0 [false]).owner = .driver ∧ levelAt (fresh 0 [false]) datPin 0 = false) ∧
    (fresh 0 [true, false]).probed = false ∧ (fresh 0 [true, false]).owner = .driver ∧
    levelAt (fresh 0 [true, false]) datPin 0 = true ∧ levelAt (fresh 0 [true, false]) datPin 1 = false := by decide

/-- A responder that is nobody, one that is the second candidate. -/
theorem test_witness_ProbeFindsTheFirstPresentCandidate :
    let answers (present : List DeviceAddr) := responderLevels present [addressByte Config.params.addrA] ++
      responderLevels present [addressByte Config.params.addrB] ++ []
    (fresh 0 (answers [])).probed = false ∧ (fresh 0 (answers [])).owner = .driver ∧
    (fresh 0 (answers [])).pinAnswers = answers [] ∧
    (fresh 0 (answers [Config.params.addrB])).pinAnswers = answers [Config.params.addrB] := ⟨rfl, rfl, rfl, rfl⟩

theorem test_witness_BprobeFallsBackToPlainInputs :
    (fresh 0 [true, true]).probed = false ∧ (fresh 0 [true, true]).owner = .driver ∧
    levelAt (fresh 0 [true, true]) datPin 0 = true ∧ levelAt (fresh 0 [true, true]) datPin 1 = true := by decide

/-- The clauses for BPROBE and BOOT, and those for a display, in states no run reaches. -/
theorem test_witness_WireOperationsNeedTheDriver :
    withoutDisplay.owner = .sampler ∧
    ({ fresh 0 [] with owner := .sampler }.owner = .sampler ∧ { fresh 0 [] with owner := .sampler }.probed = false) ∧
    { withDisplay with owner := .sampler }.owner = .sampler ∧ { withDisplay with owner := .sampler }.probed = true ∧
    { withDisplay with owner := .sampler }.displayPresent = true := by decide

theorem test_witness_ProbeOrdersTheSession : withDisplay.probed = true ∧ (fresh 0 []).probed = false := by decide

theorem test_witness_DinitSendsOneCommandFrame :
    withDisplay.displayPresent = true ∧ withDisplay.owner = .driver := by decide

theorem test_witness_DflushSendsTheWholeFramebuffer :
    withDisplay.displayPresent = true ∧ withDisplay.owner = .driver ∧ withDisplay.fbCleared = true := by decide

/-- Both clauses, at the corners of the screen. -/
theorem test_witness_DsetpixWritesItsOwnPixel :
    withDisplay.fbCleared = true ∧ onScreen (127 : Coord).toInt (63 : Coord).toInt = true ∧
    onScreen (0 : Coord).toInt (0 : Coord).toInt = true ∧ onScreen (128 : Coord).toInt (0 : Coord).toInt = false ∧
    onScreen (0 : Coord).toInt (-1 : Coord).toInt = false := by decide

theorem test_witness_DhlineTurnsOnItsSegment : withDisplay.fbCleared = true := rfl

theorem test_witness_DvlineTurnsOnItsSegment : withDisplay.fbCleared = true := rfl

theorem test_witness_DisplayOperationsNeedADisplay : withoutDisplay.displayPresent = false := rfl

/-- Each clause: a line that just touches the screen and one that just misses it, a glyph and an unmapped character. -/
theorem test_witness_DrawingBeforeTheFirstClearIsRefused :
    let s := { withDisplay with fbCleared := false }
    (s.fbCleared = false ∧ s.displayPresent = true ∧ s.owner = .driver) ∧
    (∃ u, min (127 : Coord).toInt (200 : Coord).toInt ≤ u ∧ u ≤ max (127 : Coord).toInt (200 : Coord).toInt ∧
      onScreen u (63 : Coord).toInt = true) ∧
    (¬∃ u, min (128 : Coord).toInt (200 : Coord).toInt ≤ u ∧ u ≤ max (128 : Coord).toInt (200 : Coord).toInt ∧
      onScreen u (63 : Coord).toInt = true) ∧
    (∃ v, min (63 : Coord).toInt (64 : Coord).toInt ≤ v ∧ v ≤ max (63 : Coord).toInt (64 : Coord).toInt ∧
      onScreen (0 : Coord).toInt v = true) ∧
    (¬∃ v, min (64 : Coord).toInt (99 : Coord).toInt ≤ v ∧ v ≤ max (64 : Coord).toInt (99 : Coord).toInt ∧
      onScreen (0 : Coord).toInt v = true) := by
  refine ⟨by decide, ⟨127, by decide⟩, ?_, ⟨63, by decide⟩, ?_⟩
  · rintro ⟨u, h1, -, h3⟩
    have h2 : u ≤ 127 := by
      simp only [onScreen, decide_eq_true_eq] at h3
      exact h3.2.1
    exact absurd (le_trans h1 h2) (by decide)
  · rintro ⟨v, h1, -, h3⟩
    have h2 : v ≤ 63 := by
      simp only [onScreen, decide_eq_true_eq] at h3
      exact h3.2.2.2
    exact absurd (le_trans h1 h2) (by decide)

/-- The premises of the text clauses before the first clear, that hold whatever the font is: the empty string draws
nothing, and no glyph at (-32768, -32768) with scale 1 reaches the screen. -/
theorem test_witness_text_before_the_first_clear :
    ((1 : Byte) ≠ 0) ∧
    (¬∃ u v, onScreen u v = true ∧ TextCovers Config.params 0 0 1 [] u v) ∧
    ¬∃ u v, onScreen u v = true ∧ CharCovers Config.params (-32768) (-32768) 1 0x41 u v := by
  refine ⟨by decide, ?_, ?_⟩
  · rintro ⟨u, v, -, i, h, -⟩
    exact absurd h (Nat.not_lt_zero i)
  · rintro ⟨u, v, hs, e, -, col, row, -, -, -, hu, -⟩
    simp only [onScreen, decide_eq_true_eq] at hs
    have := col.isLt
    omega

/-- A lit glyph before the first clear, for the vectors' font: the refused clause of DCHAR and of DTEXT. -/
theorem test_witness_lit_glyph : CharCovers P 0 0 1 0x41 0 1 ∧ TextCovers P 0 0 1 [0x3F, 0x41] 6 1 := by
  have h : GlyphCovers #v[0x7E, 0x11, 0x11, 0x11, 0x7E] 0 0 1 0 1 := ⟨0, 1, by decide⟩
  have h' : GlyphCovers #v[0x7E, 0x11, 0x11, 0x11, 0x7E] 6 0 1 6 1 := ⟨0, 1, by decide⟩
  exact ⟨⟨⟨0x41, _⟩, rfl, h⟩, 1, by decide, ⟨0x41, _⟩, rfl, h'⟩

theorem test_witness_DrawingIsDeterminedByItsCalls :
    (∀ d ∈ [Instr.dsetpix 5 10 true], isDrawing d = true) ∧
    (∃ s', runInstrs [.dclear, .dsetpix 5 10 true] (fresh 0 []) = .next s') ∧
    ∃ t', runInstrs [.dclear, .dsetpix 5 10 true] withDisplay = .next t' :=
  ⟨by decide, ⟨_, rfl⟩, ⟨_, rfl⟩⟩

theorem test_witness_DcharTurnsOnItsGlyph : (1 : Byte) ≠ 0 ∧ (255 : Byte) ≠ 0 ∧ withDisplay.fbCleared = true := by decide

theorem test_witness_DtextTurnsOnItsCharacters : (1 : Byte) ≠ 0 ∧ withDisplay.fbCleared = true := by decide

theorem test_witness_UnmappedCharacterKeepsTheLayout : fontEntry P.font 0x42 = none := by decide

/-- "1A" and "1B" differ at the pixel (6, 1), which the "A" covers. -/
theorem test_witness_LayoutIsStableUnderUnmapping :
    fontEntry P.font 0x42 = none ∧
    pixelAt (paint (textPixels P 0 0 1 ([0x31] ++ 0x41 :: [])) true []) 6 1 ≠
      pixelAt (paint (textPixels P 0 0 1 ([0x31] ++ 0x42 :: [])) true []) 6 1 := by decide +kernel

/-- One state for each family and each mode. -/
theorem test_witness_gate_families :
    ∀ f : Family, ({ withDisplay with family := f }.probed = true ∧ { withDisplay with family := f }.family = f ∧
      { withDisplay with family := f }.displayPresent = true) ∧
    { withoutDisplay with family := f }.probed = true ∧ { withoutDisplay with family := f }.family = f ∧
    { withoutDisplay with family := f }.displayPresent = false := by
  intro f
  cases f <;> decide

theorem test_witness_GevalDrivesEachOutputOnThreePins :
    withDisplay.probed = true := by decide

/-- The second clause: a BPROBE issued alone, with and without a display. The reads it is about do arise. -/
theorem test_witness_ReadsBeforeTheFirstWrite :
    (∃ t, exec .bprobe (fresh 0xFF [false]) = .next t ∧ t.displayPresent = true) ∧
    (∃ t, exec .bprobe (fresh 0xFF [true, true]) = .next t) ∧
    ∀ i ∈ [Instr.geval, .cycle, .cstep true], readsUnwritten i { withDisplay with familySet := false } = true :=
  ⟨⟨_, rfl, by rw [probe_eq]; rfl⟩, ⟨_, rfl⟩, by decide⟩

/-- Both clauses, at the last family code and just above it. -/
theorem test_witness_CloadTakesTheStoredFamilyOrTheDefault :
    (fresh 4 []).nv.toNat ≤ 4 ∧ 5 ≤ (fresh 5 []).nv.toNat := by decide

theorem test_witness_CstepAdvancesOnARisingEdge :
    withDisplay.displayPresent = true ∧ withDisplay.prevBtn = false ∧
    { withDisplay with prevBtn := true }.displayPresent = true ∧
    { withDisplay with prevBtn := true }.prevBtn = true := by decide

theorem test_witness_NvupdWritesOnlyADifferentByte : (fresh 3 []).nv = 3 ∧ (fresh 3 []).nv ≠ 1 := by decide

/-- A matching stored byte, and a cold one. -/
theorem test_witness_FivePressesReturnTheFamily :
    (withDisplay.displayPresent = true ∧ withDisplay.prevBtn = false) ∧
    withDisplay.nv = withDisplay.family.code ∧ Family.ofByte { withDisplay with nv := 0xFF }.nv = none := by decide

/-- The three answers to the probe. -/
theorem test_witness_BootDecidesTheSession :
    ((fresh 0xFF [false]).probed = false ∧ (fresh 0xFF [false]).owner = .driver ∧
      levelAt (fresh 0xFF [false]) datPin 0 = false) ∧
    ((fresh 4 [true, false]).probed = false ∧ (fresh 4 [true, false]).owner = .driver ∧
      levelAt (fresh 4 [true, false]) datPin 0 = true ∧ levelAt (fresh 4 [true, false]) datPin 1 = false) ∧
    (fresh 5 [true, true]).probed = false ∧ (fresh 5 [true, true]).owner = .driver ∧
    levelAt (fresh 5 [true, true]) datPin 0 = true ∧ levelAt (fresh 5 [true, true]) datPin 1 = true := by decide

theorem test_witness_CycleWithoutDisplaySamplesFourRows :
    withoutDisplay.probed = true ∧ withoutDisplay.displayPresent = false ∧ withoutDisplay.owner = .sampler := by
  decide

theorem test_witness_CycleWithDisplayDrawsTheDiagram :
    withDisplay.probed = true ∧ withDisplay.displayPresent = true ∧ withDisplay.owner = .driver := by
  decide

theorem test_witness_CycleWritesTheStoreAtMostOnce :
    (∃ t, exec .cycle withDisplay = .next t) ∧ ∃ t, exec .cycle withoutDisplay = .next t :=
  ⟨⟨_, rfl⟩, ⟨_, rfl⟩⟩

/-- A session before the probe, with a pending DCLEAR. -/
theorem test_witness_SessionInvariantKeptByEveryStep :
    let s := { fresh 4 [] with commands := [0x31] }
    SessionInv s ∧ ∃ t, step s = .next t := by
  have hp : ∀ p : InPin, ({ fresh 4 [] with commands := [0x31] } : State).pinMode[p] = .plain := by decide
  refine ⟨⟨rfl, fun _ => rfl, fun _ => ⟨rfl, rfl⟩, fun h => absurd h (by decide), fun p _ => hp p, fun h => absurd h (by decide),
    fun h => ?_, fun h => ?_, fun h => absurd h (by decide)⟩, _, rfl⟩
  · exact absurd (h.symm.trans (hp clkPin)) (by decide)
  · exact absurd (h.symm.trans (hp datPin)) (by decide)

/-- The premises of the first clause of `ReadsBeforeTheFirstWrite` as well. -/
theorem test_witness_SequencerNeverStops : SequencerReady (fresh 4 []) ∧ LoadedWithProbe (fresh 4 []) := by
  have hp : ∀ p : InPin, (fresh 4 []).pinMode[p] = .plain := by decide
  refine ⟨⟨⟨rfl, fun _ => rfl, fun _ => ⟨rfl, rfl⟩, fun h => absurd h (by decide), fun p _ => hp p,
    fun h => absurd h (by decide), fun h => ?_, fun h => ?_, fun h => absurd h (by decide)⟩, rfl⟩,
    fun h => absurd h (by decide)⟩
  · exact absurd (h.symm.trans (hp clkPin)) (by decide)
  · exact absurd (h.symm.trans (hp datPin)) (by decide)

/-- Every pin answers 1 for as many reads as a cycle can make, so that the next CYCLE sees a press. -/
def edgeComing : State := { withDisplay with pinAnswers := List.replicate 24 true }

theorem edgeComing_edge : cycleEdge edgeComing = true := by
  unfold cycleEdge cycleButton rowsEnd row3Start row2Start afterRow
  cases Config.params.shortCircuit <;> decide +kernel

/-- A state for each clause: before the boot; loaded with the store in step; with an edge coming (the button answers 1
whatever the rows use); without a display; held at the last family code. -/
theorem test_witness_SequencerKeepsTheFamilyPersisted :
    ((fresh 4 []).commands = [] ∧ Persisted (fresh 4 []) ∧ (fresh 4 []).probed = false ∧ (fresh 4 []).nv.toNat ≤ 4 ∧
      ∃ t, step (fresh 4 []) = .next t) ∧
    (withoutDisplay.commands = [] ∧ Persisted withoutDisplay ∧ withoutDisplay.nv = withoutDisplay.family.code ∧ withoutDisplay.displayPresent = false ∧
      ∃ t, step withoutDisplay = .next t) ∧
    ((edgeComing.probed = true ∧ edgeComing.displayPresent = true ∧ edgeComing.commands = []) ∧
      cycleEdge edgeComing = true ∧ ∃ t, step edgeComing = .next t) ∧
    cycleEdge { withDisplay with prevBtn := true } = false ∧
    ∃ t, step { withDisplay with prevBtn := true } = .next t := by
  refine ⟨⟨rfl, ⟨fun _ => .inr rfl, fun h => absurd h (by decide)⟩, rfl, by decide, _, rfl⟩,
    ⟨rfl, ⟨fun h => absurd h (by decide), fun _ => .inl rfl⟩, rfl, rfl, _, rfl⟩,
    ⟨⟨rfl, rfl, rfl⟩, edgeComing_edge, _, rfl⟩, rfl, _, rfl⟩

theorem test_witness_ProbeResultIsFixedForTheSession :
    withDisplay.probed = true ∧ ∃ t, exec .cycle withDisplay = .next t := ⟨rfl, _, rfl⟩

theorem test_witness_StateItemsAreWrittenByTheirOperations : ∃ t, exec .cload (fresh 4 []) = .next t := ⟨_, rfl⟩

theorem test_witness_TraceOnlyGrows : ∃ t, exec (.bwrite 0x78) (fresh 4 []) = .next t := ⟨_, rfl⟩

theorem test_witness_WiresAreIdleBetweenFrames :
    ∃ t, exec .bstop withDisplay = .next t ∧ t.displayPresent = true := ⟨_, rfl, rfl⟩

theorem test_witness_StatusIndicatorsFollowTheMapping :
    let s := { withDisplay with y := true, yb := true, in1 := true, in2 := true, in3 := true }
    let u := { withoutDisplay with in4 := true, y := true, family := .andNand }
    (s.displayPresent = true ∧ s.y = true ∧ s.family = .dualNot ∧ s.yb = true ∧ s.in1 = true ∧ s.in2 = true ∧
      s.in3 = true) ∧
    u.displayPresent = false ∧ u.in4 = true ∧ u.y = true ∧ u.family ≠ .dualNot := by decide

end Sys2Proof.Tests
end

/-! PROOFS of the scope family (00_scope.md): when an operation completes and in what state; every operation only appends
to the trace (R14); BOOT and CYCLE keep the session invariant, so a device driven by its own sequencer is never refused
(R19). -/

namespace Sys2Proof.Machine

/-! ### When an operation completes -/

/-- An operation behind a refusal check completes if the check passes and the rest completes. -/
theorem ite_refused_eq_next {c : Prop} [Decidable c] {r : Refusal} {a : Result} {t : State} :
    (if c then .refused r else a) = .next t ↔ ¬c ∧ a = .next t := by
  by_cases h : c <;> simp [h]

theorem owner_ne_sampler {o : Owner} : o ≠ .sampler ↔ o = .driver := by
  cases o <;> simp

theorem execRds_eq_next {p : InPin} {s t : State} : execRds p s = .next t ↔
    ownedByDriver [p] s = false ∧
      { (readStable Config.params p s).2 with res := (readStable Config.params p s).1 } = t := by
  simp [execRds, ite_refused_eq_next]

theorem execRor_eq_next {m : BitVec 10} {s t : State} : execRor m s = .next t ↔
    ownedByDriver (pinsOfMask m) s = false ∧
      { (rowOr Config.params (pinsOfMask m) s).2 with res := (rowOr Config.params (pinsOfMask m) s).1 } = t := by
  simp [execRor, ite_refused_eq_next]

theorem execBstart_eq_next {s t : State} :
    execBstart s = .next t ↔ s.owner = .driver ∧ busStart Config.params s = t := by
  simp [execBstart, ite_refused_eq_next, ← owner_ne_sampler]

theorem execBstop_eq_next {s t : State} :
    execBstop s = .next t ↔ s.owner = .driver ∧ busStop Config.params s = t := by
  simp [execBstop, ite_refused_eq_next, ← owner_ne_sampler]

theorem execBwrite_eq_next {b : Byte} {s t : State} : execBwrite b s = .next t ↔
    s.owner = .driver ∧
      { (writeByte Config.params b s).2 with res := (writeByte Config.params b s).1 } = t := by
  simp [execBwrite, ite_refused_eq_next, ← owner_ne_sampler]

theorem execBprobe_eq_next {s t : State} :
    execBprobe s = .next t ↔ s.probed = false ∧ s.owner = .driver ∧ probe Config.params s = t := by
  simp [execBprobe, ite_refused_eq_next, ← owner_ne_sampler]

theorem execDinit_eq_next {s t : State} : execDinit s = .next t ↔
    s.displayPresent = true ∧ s.owner = .driver ∧ initDisplay Config.params s = t := by
  simp [execDinit, ite_refused_eq_next, ← owner_ne_sampler]

theorem execDflush_eq_next {s t : State} : execDflush s = .next t ↔
    s.displayPresent = true ∧ s.owner = .driver ∧ s.fbCleared = true ∧ flushFrame Config.params s = t := by
  simp [execDflush, ite_refused_eq_next, ← owner_ne_sampler]

/-- A drawing operation that completes has painted its pixels. -/
theorem eq_of_draw_eq_next {ps : List (Int × Int)} {on : Bool} {s t : State} (h : draw ps on s = .next t) :
    { s with fb := paint ps on s.fb } = t := by
  rw [draw, ite_refused_eq_next, Host.Outcome.next.injEq] at h
  exact h.2

theorem execDchar_eq_next {x y : Coord} {k c : Byte} {s t : State} : execDchar x y k c s = .next t ↔
    k.toNat ≠ 0 ∧ draw (charPixels Config.params (coordValue x) (coordValue y) k.toNat c) true s = .next t := by
  rw [execDchar, ite_refused_eq_next]

theorem execDtext_eq_next {x y : Coord} {k : Byte} {str : List Byte} {s t : State} :
    execDtext x y k str s = .next t ↔
      k.toNat ≠ 0 ∧ draw (textPixels Config.params (coordValue x) (coordValue y) k.toNat str) true s = .next t := by
  rw [execDtext, ite_refused_eq_next]

theorem execGeval_eq_next {s t : State} : execGeval s = .next t ↔ s.probed = true ∧ evalGate s = t := by
  simp [execGeval, ite_refused_eq_next]

theorem execCstep_eq_next {b : Bool} {s t : State} :
    execCstep b s = .next t ↔ s.displayPresent = true ∧ buttonStep Config.params b s = t := by
  simp [execCstep, ite_refused_eq_next]

theorem execBoot_eq_next {s t : State} : execBoot s = .next t ↔
    s.probed = false ∧ s.owner = .driver ∧ bootSession Config.params s = t := by
  simp [execBoot, ite_refused_eq_next, ← owner_ne_sampler]

/-- CYCLE completes after the probe, if the wires belong to whom the display's presence gives them (10_state.md R34). -/
theorem execCycle_eq_next {s t : State} : execCycle s = .next t ↔
    s.probed = true ∧ (s.owner = .driver ↔ s.displayPresent = true) ∧ runCycle Config.params s = t := by
  have row4_owned : ownedByDriver row4 s = decide (s.owner = .driver) := by
    simp [ownedByDriver, row4, isWirePin]
  rw [execCycle, row4_owned]
  cases s.displayPresent <;> cases s.owner <;> simp [ite_refused_eq_next]

/-! ### The trace (00_scope.md R14) -/

section Trace

variable (P : Params) (s : State)

theorem trace_grows_readStable (p : InPin) : s.trace <+: (readStable P p s).2.trace := by
  rw [readStable_eq]
  exact ⟨_, rfl⟩

theorem trace_grows_rowOr (ps : List InPin) : s.trace <+: (rowOr P ps s).2.trace := by
  rw [rowOr_eq]
  exact ⟨_, rfl⟩

theorem trace_grows_busStart : s.trace <+: (busStart P s).trace := by
  rw [busStart_eq]
  exact ⟨_, rfl⟩

theorem trace_grows_busStop : s.trace <+: (busStop P s).trace := by
  rw [busStop_eq]
  exact ⟨_, rfl⟩

theorem trace_grows_writeByte (b : Byte) : s.trace <+: (writeByte P b s).2.trace := by
  rw [writeByte_eq]
  exact ⟨_, rfl⟩

theorem trace_grows_txn (a : DeviceAddr) (bs : List Byte) : s.trace <+: (txn P a bs s).trace := by
  rw [txn_eq P a bs s 0 (levelAt s datPin) (by simp)]
  exact ⟨_, rfl⟩

theorem trace_grows_probe : s.trace <+: (probe P s).trace := by
  rw [probe_eq]
  split_ifs <;> simp [List.append_assoc]

theorem trace_grows_flushFrame : s.trace <+: (flushFrame P s).trace := by
  rw [flushFrame_eq]
  simp [List.append_assoc]

theorem trace_grows_evalGate : s.trace <+: (evalGate s).trace := ⟨_, rfl⟩

theorem trace_grows_loadFamily : s.trace <+: (loadFamily P s).trace := by
  rw [loadFamily_eq]
  exact ⟨_, rfl⟩

theorem trace_grows_nvUpdate (v : Byte) : s.trace <+: (nvUpdate P v s).trace := by
  rw [nvUpdate_eq]
  simp [List.append_assoc]

theorem trace_grows_buttonStep (b : Bool) : s.trace <+: (buttonStep P b s).trace := by
  cases h : risingEdge b s
  · rw [buttonStep_noEdge P h]
  · rw [buttonStep_edge P h]
    simp [List.append_assoc]

theorem trace_grows_bootSession : s.trace <+: (bootSession P s).trace := by
  have prepared : s.trace <+: (loadFamily P (allPinsPlain s)).trace := by
    rw [bootPrepared_eq]
    exact ⟨_, rfl⟩
  have probed := prepared.trans (trace_grows_probe P _)
  rw [bootSession, delay_eq]
  split
  · exact probed.trans (trace_grows_txn P _ _ _)
  · exact probed

theorem trace_grows_sampleRows : s.trace <+: (sampleRows Config.params s).trace := by
  rw [sampleRows_eq]
  simp [List.append_assoc]

theorem trace_grows_sampleRow4 : s.trace <+: (sampleRow4 P s).trace := by
  rw [sampleRow4]
  exact trace_grows_rowOr P s row4

theorem trace_grows_sampleButton : s.trace <+: (sampleButton P s).trace := by
  have read := trace_grows_readStable P { s with in4 := false, rowsSet := true } buttonPin
  rw [sampleButton]
  exact read.trans (trace_grows_buttonStep P _ _)

theorem trace_grows_showFrame : s.trace <+: (showFrame P s).trace := by
  have flush := trace_grows_flushFrame P { clearFrame s with fb := (diagramOf P s).foldl (paintOp P) [] }
  rwa [clearFrame_trace] at flush

theorem trace_grows_runCycle : s.trace <+: (runCycle Config.params s).trace := by
  have rows := trace_grows_sampleRows s
  cases h : s.displayPresent
  · rw [runCycle_noDisplay _ h]
    exact (rows.trans (trace_grows_sampleRow4 _ _)).trans (trace_grows_evalGate _)
  · rw [runCycle_display _ h]
    exact ((rows.trans (trace_grows_sampleButton _ _)).trans (trace_grows_evalGate _)).trans
      (trace_grows_showFrame _ _)

end Trace

theorem trace_grows_draw {ps : List (Int × Int)} {on : Bool} {s t : State} (h : draw ps on s = .next t) :
    s.trace <+: t.trace := by
  rw [← eq_of_draw_eq_next h]

/-- Whatever instruction completes, the trace before it begins the trace after it. -/
theorem trace_grows_exec {i : Instr} {s t : State} (h : exec i s = .next t) : s.trace <+: t.trace := by
  cases i with
  | boot =>
    obtain ⟨-, -, rfl⟩ := execBoot_eq_next.1 h
    exact trace_grows_bootSession _ s
  | cycle =>
    obtain ⟨-, -, rfl⟩ := execCycle_eq_next.1 h
    exact trace_grows_runCycle s
  | rds p =>
    obtain ⟨-, rfl⟩ := execRds_eq_next.1 h
    dsimp only
    exact trace_grows_readStable _ s p
  | ror m =>
    obtain ⟨-, rfl⟩ := execRor_eq_next.1 h
    dsimp only
    exact trace_grows_rowOr _ s _
  | bstart =>
    obtain ⟨-, rfl⟩ := execBstart_eq_next.1 h
    exact trace_grows_busStart _ s
  | bstop =>
    obtain ⟨-, rfl⟩ := execBstop_eq_next.1 h
    exact trace_grows_busStop _ s
  | bwrite b =>
    obtain ⟨-, rfl⟩ := execBwrite_eq_next.1 h
    dsimp only
    exact trace_grows_writeByte _ s b
  | bprobe =>
    obtain ⟨-, -, rfl⟩ := execBprobe_eq_next.1 h
    exact trace_grows_probe _ s
  | dinit =>
    obtain ⟨-, -, rfl⟩ := execDinit_eq_next.1 h
    exact trace_grows_txn _ s _ _
  | dclear =>
    cases h
    exact ⟨[], List.append_nil _⟩
  | dsetpix x y on => exact trace_grows_draw h
  | dhline x0 x1 y => exact trace_grows_draw h
  | dvline x y0 y1 => exact trace_grows_draw h
  | dflush =>
    obtain ⟨-, -, -, rfl⟩ := execDflush_eq_next.1 h
    exact trace_grows_flushFrame _ s
  | dchar x y k c => exact trace_grows_draw (execDchar_eq_next.1 h).2
  | dtext x y k str => exact trace_grows_draw (execDtext_eq_next.1 h).2
  | geval =>
    obtain ⟨-, rfl⟩ := execGeval_eq_next.1 h
    exact trace_grows_evalGate s
  | cload =>
    cases h
    exact trace_grows_loadFamily _ s
  | cstep b =>
    obtain ⟨-, rfl⟩ := execCstep_eq_next.1 h
    exact trace_grows_buttonStep _ s b
  | nvupd v =>
    cases h
    exact trace_grows_nvUpdate _ s v

/-- Settles O58: every operation is made of parts that append to the trace. -/
theorem traceOnlyGrows : Obligations.TraceOnlyGrows := by
  intro i s t h
  obtain ⟨es, hes⟩ := trace_grows_exec h
  exact ⟨es, hes.symm⟩

/-! ### BOOT and CYCLE keep the session invariant (10_state.md R38)

An update of items the invariant does not speak of keeps it field by field: `{ hi with }`. -/

/-- With a display the driver owns the wires. -/
theorem SessionInv.owner_driver {s : State} (hi : SessionInv s) (hd : s.displayPresent = true) :
    s.owner = .driver := by
  cases hp : s.probed
  · exact (hi.before_probe hp).1
  · exact (hi.owner_iff hp).2 hd

/-- The driver may set the wires' modes, as long as it drives no wire high (41_bit_protocol.md R110). -/
theorem SessionInv.set_wires {s : State} (hi : SessionInv s) (ho : s.owner = .driver) {a b : PinMode} {c d : Bool}
    (hclk : a = .output → c = false) (hdat : b = .output → d = false) :
    SessionInv { s with pinMode := wiresSet s.pinMode a b, latchClk := c, latchDat := d } :=
  { hi with
    other_pins := fun p hp => (wiresSet_other _ _ _ p hp).trans (hi.other_pins p hp)
    wires_plain := fun hp hd => absurd ((hi.owner_iff hp).1 ho) (by simpa using hd)
    clk_low := fun h => hclk ((wiresSet_clk _ _ _).symm.trans h)
    dat_low := fun h => hdat ((wiresSet_dat _ _ _).symm.trans h) }

theorem SessionInv.after_txn {s : State} (hi : SessionInv s) (ho : s.owner = .driver) (P : Params) (a : DeviceAddr)
    (bs : List Byte) : SessionInv (txn P a bs s) := by
  rw [txn_eq P a bs s 0 (levelAt s datPin) (by simp)]
  exact { hi.set_wires ho (fun _ => rfl) (fun _ => rfl) with }

/-- The end of a probe that found a display: wires idle, one of the two candidates latched (R114). -/
theorem SessionInv.display_found {s : State} (hi : SessionInv s) (ho : s.owner = .driver) {a : DeviceAddr}
    (ha : a = Config.params.addrA ∨ a = Config.params.addrB) :
    SessionInv { s with
      dispAddr := a, displayPresent := true, probed := true,
      pinMode := wiresSet s.pinMode .pullUp .pullUp, latchClk := false, latchDat := false } :=
  { hi.set_wires ho (fun _ => rfl) (fun _ => rfl) with
    before_probe := nofun
    owner_iff := fun _ => iff_of_true ho rfl
    wires_plain := nofun
    address := fun _ => ha }

/-- The end of a probe that found none: the wires are plain inputs and go to the Sampler (R114, R201). -/
theorem SessionInv.no_display_found {s : State} (hi : SessionInv s) :
    SessionInv { s with
      displayPresent := false, probed := true, owner := .sampler,
      pinMode := wiresSet s.pinMode .plain .plain, latchClk := false, latchDat := false } :=
  { hi with
    before_probe := nofun
    owner_iff := fun _ => iff_of_false nofun nofun
    other_pins := fun p hp => (wiresSet_other _ _ _ p hp).trans (hi.other_pins p hp)
    wires_plain := fun _ _ => ⟨wiresSet_clk _ _ _, wiresSet_dat _ _ _⟩
    clk_low := fun _ => rfl
    dat_low := fun _ => rfl
    address := nofun }

theorem SessionInv.after_probe {s : State} (hi : SessionInv s) (ho : s.owner = .driver) :
    SessionInv (probe Config.params s) := by
  rw [probe_eq]
  split_ifs
  · exact { hi.no_display_found with }
  · exact { hi.display_found ho (.inr rfl) with }
  · exact { hi.display_found ho (.inl rfl) with }

/-- BOOT before the probe: every pin is a plain input. -/
theorem SessionInv.after_bootPrepared {s : State} (hi : SessionInv s) (P : Params) :
    SessionInv (loadFamily P (allPinsPlain s)) := by
  rw [bootPrepared_eq]
  have all_plain (p : InPin) : (Vector.replicate 10 PinMode.plain)[p] = .plain := Vector.getElem_replicate p.isLt
  exact { hi with
    other_pins := fun p _ => all_plain p
    wires_plain := fun _ _ => ⟨all_plain _, all_plain _⟩
    clk_low := fun h => absurd (h.symm.trans (all_plain clkPin)) nofun
    dat_low := fun h => absurd (h.symm.trans (all_plain datPin)) nofun }

theorem SessionInv.after_bootSession {s : State} (hi : SessionInv s) (ho : s.owner = .driver) :
    SessionInv (bootSession Config.params s) := by
  have probed : SessionInv (probe Config.params (loadFamily Config.params (allPinsPlain s))) :=
    (hi.after_bootPrepared Config.params).after_probe (by simpa [bootPrepared_eq] using ho)
  rw [bootSession, delay_eq]
  split_ifs with hd
  · exact probed.after_txn (probed.owner_driver hd) _ _ _
  · exact probed

theorem SessionInv.after_sampleRows {s : State} (hi : SessionInv s) : SessionInv (sampleRows Config.params s) := by
  rw [sampleRows_eq]
  exact { hi with }

theorem SessionInv.after_sampleRow4 {s : State} (hi : SessionInv s) (P : Params) : SessionInv (sampleRow4 P s) := by
  rw [sampleRow4, rowOr_eq]
  exact { hi with }

theorem SessionInv.after_buttonStep {s : State} (hi : SessionInv s) (P : Params) (b : Bool) :
    SessionInv (buttonStep P b s) := by
  cases h : risingEdge b s
  · rw [buttonStep_noEdge P h]
    exact { hi with }
  · rw [buttonStep_edge P h]
    exact { hi with }

theorem SessionInv.after_sampleButton {s : State} (hi : SessionInv s) (P : Params) :
    SessionInv (sampleButton P s) := by
  have read : SessionInv (readStable P buttonPin { s with in4 := false, rowsSet := true }).2 := by
    rw [readStable_eq]
    exact { hi with }
  rw [sampleButton]
  exact read.after_buttonStep P _

theorem SessionInv.after_evalGate {s : State} (hi : SessionInv s) : SessionInv (evalGate s) := { hi with }

/-- The diagram leaves the framebuffer in canonical form. -/
theorem wf_foldl_paintOp (P : Params) (ops : List DrawOp) {m : Memory} (hm : m.wf = true) :
    (ops.foldl (paintOp P) m).wf = true := by
  induction ops generalizing m with
  | nil => exact hm
  | cons op ops ih => exact ih (wf_paint hm)

theorem SessionInv.after_flushFrame {s : State} (hi : SessionInv s) (ho : s.owner = .driver) (P : Params) :
    SessionInv (flushFrame P s) := by
  rw [flushFrame_eq]
  exact { hi.set_wires ho (fun _ => rfl) (fun _ => rfl) with }

theorem SessionInv.after_showFrame {s : State} (hi : SessionInv s) (ho : s.owner = .driver) (P : Params) :
    SessionInv (showFrame P s) := by
  have drawn : SessionInv { clearFrame s with fb := (diagramOf P s).foldl (paintOp P) (clearFrame s).fb } :=
    { hi with
      fb_wf := wf_foldl_paintOp P _ (wf_clearFrame s)
      fb_empty := fun h => absurd h (by simp) }
  rw [showFrame]
  exact drawn.after_flushFrame ho P

/-! ### What BOOT and CYCLE leave -/

/-- What the probe decided, whether CLOAD has run, and the pending command bytes: no part of a CYCLE writes them. -/
def sessionItems (s : State) : (Bool × Bool × DeviceAddr × Owner) × Bool × List Byte :=
  ((s.probed, s.displayPresent, s.dispAddr, s.owner), s.familySet, s.commands)

theorem sessionItems_sampleRows (s : State) : sessionItems (sampleRows Config.params s) = sessionItems s := by
  rw [sampleRows_eq]
  rfl

theorem sessionItems_sampleRow4 (P : Params) (s : State) : sessionItems (sampleRow4 P s) = sessionItems s := by
  rw [sampleRow4, rowOr_eq]
  rfl

theorem sessionItems_buttonStep (P : Params) (b : Bool) (s : State) :
    sessionItems (buttonStep P b s) = sessionItems s := by
  cases h : risingEdge b s
  · rw [buttonStep_noEdge P h]
    rfl
  · rw [buttonStep_edge P h]
    rfl

theorem sessionItems_sampleButton (P : Params) (s : State) :
    sessionItems (sampleButton P s) = sessionItems s := by
  rw [sampleButton, sessionItems_buttonStep, readStable_eq]
  rfl

theorem sessionItems_evalGate (s : State) : sessionItems (evalGate s) = sessionItems s := rfl

theorem sessionItems_showFrame (P : Params) (s : State) : sessionItems (showFrame P s) = sessionItems s := by
  rw [showFrame, flushFrame_eq]
  rfl

theorem sessionItems_runCycle (s : State) : sessionItems (runCycle Config.params s) = sessionItems s := by
  cases h : s.displayPresent
  · rw [runCycle_noDisplay _ h, sessionItems_evalGate, sessionItems_sampleRow4, sessionItems_sampleRows]
  · rw [runCycle_display _ h, sessionItems_showFrame, sessionItems_evalGate, sessionItems_sampleButton,
      sessionItems_sampleRows]

theorem owner_evalGate_sampleButton (s : State) :
    (evalGate (sampleButton Config.params (sampleRows Config.params s))).owner = s.owner := by
  have h : sessionItems (evalGate (sampleButton Config.params (sampleRows Config.params s))) = sessionItems s := by
    rw [sessionItems_evalGate, sessionItems_sampleButton, sessionItems_sampleRows]
  simp only [sessionItems, Prod.mk.injEq] at h
  obtain ⟨⟨-, -, -, owner⟩, -⟩ := h
  exact owner

theorem SessionInv.after_runCycle {s : State} (hi : SessionInv s) : SessionInv (runCycle Config.params s) := by
  have rows := hi.after_sampleRows
  cases hd : s.displayPresent
  · rw [runCycle_noDisplay _ hd]
    exact (rows.after_sampleRow4 _).after_evalGate
  · rw [runCycle_display _ hd]
    have ho := (owner_evalGate_sampleButton s).trans (hi.owner_driver hd)
    exact (rows.after_sampleButton _).after_evalGate.after_showFrame ho _

theorem sessionItems_txn (P : Params) (a : DeviceAddr) (bs : List Byte) (s : State) :
    sessionItems (txn P a bs s) = sessionItems s := by
  rw [txn_eq P a bs s 0 (levelAt s datPin) (by simp)]
  rfl

/-- The probe leaves whether CLOAD has run, and the pending command bytes. -/
theorem sessionItems_probe (P : Params) (s : State) :
    (sessionItems (probe P s)).2 = (s.familySet, s.commands) := by
  rw [probe_eq]
  split_ifs <;> rfl

/-- BOOT runs CLOAD and leaves the pending command bytes (R180). -/
theorem bootSession_loads (P : Params) (s : State) :
    (bootSession P s).familySet = true ∧ (bootSession P s).commands = s.commands := by
  have probed : (sessionItems (probe P (loadFamily P (allPinsPlain s)))).2 = (true, s.commands) := by
    rw [sessionItems_probe, bootPrepared_eq]
  have booted : (sessionItems (bootSession P s)).2 = (true, s.commands) := by
    rw [bootSession, delay_eq]
    split
    · rwa [initDisplay, sessionItems_txn]
    · exact probed
  exact Prod.mk.inj booted

/-! ### A run of the sequencer (70_reset_and_hazards.md R220) -/

/-- With no command pending a step is what the sequencer issues (log 1). -/
theorem step_no_command {s : State} (h : s.commands = []) : step s = exec (sequencerInstr s) s := by
  have fetched : fetch s = .ok (sequencerInstr s, s.commands) := by simp [fetch, h]
  simp only [step, fetched]

/-- BOOT completes before the probe and leaves CLOAD done (R180). -/
theorem SequencerReady.boot_completes {s : State} (h : SequencerReady s) (hp : s.probed = false) :
    ∃ t, exec .boot s = .next t ∧ SequencerReady t ∧ LoadedWithProbe t := by
  obtain ⟨owned, -⟩ := h.inv.before_probe hp
  obtain ⟨loaded, commands⟩ := bootSession_loads Config.params s
  exact ⟨bootSession Config.params s, execBoot_eq_next.2 ⟨hp, owned, rfl⟩,
    ⟨h.inv.after_bootSession owned, commands.trans h.no_command⟩, fun _ => loaded⟩

/-- CYCLE completes after the probe and leaves whether CLOAD has run (R182). -/
theorem SequencerReady.cycle_completes {s : State} (h : SequencerReady s) (hp : s.probed = true) :
    ∃ t, exec .cycle s = .next t ∧ SequencerReady t ∧ (LoadedWithProbe s → LoadedWithProbe t) := by
  have items := sessionItems_runCycle s
  simp only [sessionItems, Prod.mk.injEq] at items
  obtain ⟨⟨probed, -⟩, loaded, commands⟩ := items
  refine ⟨runCycle Config.params s, execCycle_eq_next.2 ⟨hp, h.inv.owner_iff hp, rfl⟩,
    ⟨h.inv.after_runCycle, commands.trans h.no_command⟩, fun hl => ?_⟩
  rwa [LoadedWithProbe, probed, loaded]

/-- From a state between two of the sequencer's operations the next one completes and ends in such a state. -/
theorem SequencerReady.step_completes {s : State} (h : SequencerReady s) :
    ∃ t, step s = .next t ∧ SequencerReady t ∧ (LoadedWithProbe s → LoadedWithProbe t) := by
  rw [step_no_command h.no_command, sequencerInstr]
  cases hp : s.probed
  · obtain ⟨t, completes, ready, loaded⟩ := h.boot_completes hp
    exact ⟨t, completes, ready, fun _ => loaded⟩
  · exact h.cycle_completes hp

/-- If every step from a state with `I` completes in a state with `I`, any number of steps does. -/
theorem run_of_step {I : State → Prop} (keeps : ∀ s, I s → ∃ t, step s = .next t ∧ I t) (k : Nat) {s : State}
    (hs : I s) : ∃ t, Host.Core.run Sys2Proof.core k s = .next t ∧ I t := by
  induction k generalizing s with
  | zero => exact ⟨s, rfl, hs⟩
  | succ k ih =>
    obtain ⟨u, completes, hu⟩ := keeps s hs
    have stepped : Host.Core.step Sys2Proof.core s = .next u := completes
    simp only [Host.Core.run, stepped]
    exact ih hu

/-- Settles O53, by the step lemma `SequencerReady.step_completes` and induction on the number of steps. -/
theorem sequencerNeverStops : Obligations.SequencerNeverStops := by
  intro s ready k
  refine run_of_step (I := fun t => SequencerReady t ∧ (LoadedWithProbe s → LoadedWithProbe t)) ?_ k ⟨ready, id⟩
  rintro t ⟨ht, loaded⟩
  obtain ⟨u, completes, hu, keeps⟩ := ht.step_completes
  exact ⟨u, completes, hu, keeps ∘ loaded⟩

end Sys2Proof.Machine

/-! PROOFS of the state family (10_state.md): what reset and a new session leave (R39), who may act on IP7 and IP8
(R34), the session invariant kept by every step (R38), what each instruction may write (R20), the wires idle between frames
(R38 (v)) and the family persisted (R38 (vii)). -/

namespace Sys2Proof.Machine

/-! ### Reset and a new session (10_state.md R39) -/

/-- After a reset every input pin is a plain input (R39). -/
theorem resetWith_pinMode (v : Byte) (p : InPin) : (State.resetWith v).pinMode[p] = .plain :=
  Vector.getElem_replicate p.isLt

/-- Settles O1. -/
theorem resetLeavesTheListedValues : Obligations.ResetLeavesTheListedValues := by
  rintro v s rfl
  exact ⟨rfl, rfl, rfl, rfl, resetWith_pinMode v, rfl, rfl⟩

/-- Settles O2: a new session is a reset that finds the stored byte, but for the environment's answers. -/
theorem restartKeepsTheStoredByte : Obligations.RestartKeepsTheStoredByte := by
  intro s
  exact ⟨rfl, rfl, rfl, rfl, rfl, rfl, rfl, rfl, rfl, resetWith_pinMode s.nv⟩

/-- A reset leaves the session invariant, whatever byte it finds in the store. -/
theorem SessionInv.at_resetWith (v : Byte) : SessionInv (State.resetWith v) where
  fb_wf := Memory.wf_nil
  fb_empty := fun _ => rfl
  before_probe := fun _ => ⟨rfl, rfl⟩
  owner_iff := nofun
  other_pins := fun p _ => resetWith_pinMode v p
  wires_plain := nofun
  clk_low := fun _ => rfl
  dat_low := fun _ => rfl
  address := nofun

/-- Settles O51. -/
theorem sessionInvariantHoldsAtReset : Obligations.SessionInvariantHoldsAtReset :=
  SessionInv.at_resetWith _

/-! ### Who may act on IP7 and IP8 (10_state.md R34) -/

/-- The Sampler reads no group that the driver holds a pin of (40_sampler.md R101, R102). -/
theorem exec_rds_refused {p : InPin} {s : State} (h : ownedByDriver [p] s = true) :
    exec (.rds p) s = .refused .pinOwnedByDriver :=
  if_pos h

@[inherit_doc exec_rds_refused]
theorem exec_ror_refused {m : BitVec 10} {s : State} (h : ownedByDriver (pinsOfMask m) s = true) :
    exec (.ror m) s = .refused .pinOwnedByDriver :=
  if_pos h

/-- Row 4 holds both wire pins (10_state.md R30). -/
theorem ownedByDriver_row4 {s : State} : ownedByDriver row4 s = true ↔ s.owner = .driver := by
  simp [ownedByDriver, row4, isWirePin]

/-- Settles O13. -/
theorem samplerIsRefusedTheDriversPins : Obligations.SamplerIsRefusedTheDriversPins := by
  intro s owned
  refine ⟨fun p hp => ?_, fun m hm => ?_, fun probed noDisplay => ?_⟩
  · exact exec_rds_refused ((ownedByDriver_single p s).2 ⟨owned, hp⟩)
  · exact exec_ror_refused ((ownedByDriver_mask m s).2 ⟨owned, hm⟩)
  · simp [exec, execCycle, probed, noDisplay, ownedByDriver_row4.2 owned]

/-- Settles O20. -/
theorem wireOperationsNeedTheDriver : Obligations.WireOperationsNeedTheDriver := by
  intro s owned
  refine ⟨if_pos owned, if_pos owned, fun _ => if_pos owned, fun probed => ?_, fun probed => ?_, fun display => ?_,
    fun probed display => ?_⟩
  · simp [exec, execBprobe, probed, owned]
  · simp [exec, execBoot, probed, owned]
  · simp [exec, execDinit, execDflush, display, owned]
  · simp [exec, execCycle, probed, display, owned]

/-! ### Every step keeps the session invariant (10_state.md R38) -/

/-- When a drawing operation completes: after the first DCLEAR, or wholly off the screen (20_memory.md R54, R223). -/
theorem draw_eq_next {ps : List (Int × Int)} {on : Bool} {s t : State} : draw ps on s = .next t ↔
    (s.fbCleared = false → ∀ p ∈ ps, onScreen p.1 p.2 = false) ∧ { s with fb := paint ps on s.fb } = t := by
  simp [draw, ite_refused_eq_next]

/-- Drawing keeps the canonical form, and before the first DCLEAR it writes nothing. -/
theorem SessionInv.after_draw {s t : State} (hi : SessionInv s) {ps : List (Int × Int)} {on : Bool}
    (h : draw ps on s = .next t) : SessionInv t := by
  obtain ⟨offScreen, rfl⟩ := draw_eq_next.1 h
  exact { hi with
    fb_wf := wf_paint hi.fb_wf
    fb_empty := fun uncleared => (paint_offScreen on s.fb (offScreen uncleared)).trans (hi.fb_empty uncleared) }

theorem SessionInv.after_clearFrame {s : State} (hi : SessionInv s) : SessionInv (clearFrame s) :=
  { hi with
    fb_wf := wf_clearFrame s
    fb_empty := nofun }

theorem SessionInv.after_loadFamily {s : State} (hi : SessionInv s) (P : Params) : SessionInv (loadFamily P s) := by
  rw [loadFamily_eq]
  exact { hi with }

theorem SessionInv.after_nvUpdate {s : State} (hi : SessionInv s) (P : Params) (v : Byte) :
    SessionInv (nvUpdate P v s) := by
  rw [nvUpdate_eq]
  exact { hi with }

/-- Whatever instruction completes keeps the session invariant. -/
theorem SessionInv.after_exec {i : Instr} {s t : State} (hi : SessionInv s) (h : exec i s = .next t) :
    SessionInv t := by
  cases i with
  | boot =>
    obtain ⟨-, owned, rfl⟩ := execBoot_eq_next.1 h
    exact hi.after_bootSession owned
  | cycle =>
    obtain ⟨-, -, rfl⟩ := execCycle_eq_next.1 h
    exact hi.after_runCycle
  | rds p =>
    obtain ⟨-, rfl⟩ := execRds_eq_next.1 h
    rw [readStable_eq]
    exact { hi with }
  | ror m =>
    obtain ⟨-, rfl⟩ := execRor_eq_next.1 h
    rw [rowOr_eq]
    exact { hi with }
  | bstart =>
    obtain ⟨owned, rfl⟩ := execBstart_eq_next.1 h
    rw [busStart_eq]
    exact { hi.set_wires owned (fun _ => rfl) (fun _ => rfl) with }
  | bstop =>
    obtain ⟨owned, rfl⟩ := execBstop_eq_next.1 h
    rw [busStop_eq]
    exact { hi.set_wires owned (a := .pullUp) (b := .pullUp) (c := s.latchClk) nofun (fun _ => rfl) with }
  | bwrite b =>
    obtain ⟨owned, rfl⟩ := execBwrite_eq_next.1 h
    rw [writeByte_eq]
    exact { hi.set_wires owned (b := .pullUp) (d := s.latchDat && (bitsMsbFirst b).all id) (fun _ => rfl) nofun with }
  | bprobe =>
    obtain ⟨-, owned, rfl⟩ := execBprobe_eq_next.1 h
    exact hi.after_probe owned
  | dinit =>
    obtain ⟨-, owned, rfl⟩ := execDinit_eq_next.1 h
    exact hi.after_txn owned _ _ _
  | dclear =>
    cases h
    exact hi.after_clearFrame
  | dsetpix x y on => exact hi.after_draw h
  | dhline x0 x1 y => exact hi.after_draw h
  | dvline x y0 y1 => exact hi.after_draw h
  | dflush =>
    obtain ⟨-, owned, -, rfl⟩ := execDflush_eq_next.1 h
    exact hi.after_flushFrame owned _
  | dchar x y k c => exact hi.after_draw (execDchar_eq_next.1 h).2
  | dtext x y k str => exact hi.after_draw (execDtext_eq_next.1 h).2
  | geval =>
    obtain ⟨-, rfl⟩ := execGeval_eq_next.1 h
    exact hi.after_evalGate
  | cload =>
    cases h
    exact hi.after_loadFamily _
  | cstep b =>
    obtain ⟨-, rfl⟩ := execCstep_eq_next.1 h
    exact hi.after_buttonStep _ b
  | nvupd v =>
    cases h
    exact hi.after_nvUpdate _ v

/-- A step that completes has executed an instruction, taken off the pending bytes (30_encoding.md R70). -/
theorem exec_of_step {s t : State} (h : step s = .next t) :
    ∃ i rest, exec i { s with commands := rest } = .next t := by
  cases fetched : fetch s with
  | ok next =>
    obtain ⟨i, rest⟩ := next
    exact ⟨i, rest, by simpa only [step, fetched] using h⟩
  | error e => simp [step, fetched] at h

/-- Settles O52: the pending bytes are no part of the invariant, and whatever instruction they hold keeps it. -/
theorem sessionInvariantKeptByEveryStep : Obligations.SessionInvariantKeptByEveryStep := by
  intro s t hi h
  obtain ⟨i, rest, completes⟩ := exec_of_step h
  have popped : SessionInv { s with commands := rest } := { hi with }
  exact popped.after_exec completes

/-! ### What each instruction may write (10_state.md R20, 46_sequencer_and_clients.md R191) -/

/-- `s` with the items that the instruction may write, and no others, taken from `t`. -/
def writtenFrom (i : Instr) (s t : State) : State :=
  match i with
  | .boot =>
    { s with
      family := t.family, familySet := t.familySet, displayPresent := t.displayPresent, probed := t.probed,
      dispAddr := t.dispAddr, owner := t.owner, res := t.res, pinMode := t.pinMode, latchClk := t.latchClk,
      latchDat := t.latchDat, trace := t.trace, pinAnswers := t.pinAnswers, pinReads := t.pinReads }
  | .cycle =>
    { t with
      familySet := s.familySet, displayPresent := s.displayPresent, probed := s.probed, dispAddr := s.dispAddr,
      owner := s.owner, res := s.res, commands := s.commands }
  | .rds _ | .ror _ =>
    { s with res := t.res, trace := t.trace, pinAnswers := t.pinAnswers, pinReads := t.pinReads }
  | .bstart | .bstop =>
    { s with pinMode := t.pinMode, latchClk := t.latchClk, latchDat := t.latchDat, trace := t.trace }
  | .bwrite _ =>
    { s with
      pinMode := t.pinMode, latchClk := t.latchClk, latchDat := t.latchDat, res := t.res, trace := t.trace,
      pinAnswers := t.pinAnswers, pinReads := t.pinReads }
  | .bprobe =>
    { s with
      displayPresent := t.displayPresent, probed := t.probed, dispAddr := t.dispAddr, owner := t.owner, res := t.res,
      pinMode := t.pinMode, latchClk := t.latchClk, latchDat := t.latchDat, trace := t.trace,
      pinAnswers := t.pinAnswers, pinReads := t.pinReads }
  | .dinit | .dflush =>
    { s with
      pinMode := t.pinMode, latchClk := t.latchClk, latchDat := t.latchDat, trace := t.trace,
      pinAnswers := t.pinAnswers, pinReads := t.pinReads }
  | .dclear => { s with fb := t.fb, fbCleared := t.fbCleared }
  | .dsetpix _ _ _ | .dhline _ _ _ | .dvline _ _ _ | .dchar _ _ _ _ | .dtext _ _ _ _ => { s with fb := t.fb }
  | .geval => { s with y := t.y, yb := t.yb, outPin := t.outPin, trace := t.trace }
  | .cload => { s with family := t.family, familySet := t.familySet, trace := t.trace }
  | .cstep _ => { s with family := t.family, prevBtn := t.prevBtn, nv := t.nv, trace := t.trace }
  | .nvupd _ => { s with nv := t.nv, trace := t.trace }

theorem txn_writes (P : Params) (a : DeviceAddr) (bs : List Byte) (s : State) :
    txn P a bs s = writtenFrom .dinit s (txn P a bs s) := by
  rw [txn_eq P a bs s 0 (levelAt s datPin) (by simp)]
  rfl

theorem probe_writes (P : Params) (s : State) : probe P s = writtenFrom .bprobe s (probe P s) := by
  rw [probe_eq]
  split_ifs <;> rfl

theorem bootSession_writes (P : Params) (s : State) : bootSession P s = writtenFrom .boot s (bootSession P s) := by
  have probed : probe P (loadFamily P (allPinsPlain s)) =
      writtenFrom .boot s (probe P (loadFamily P (allPinsPlain s))) := by
    rw [bootPrepared_eq, probe_eq]
    split_ifs <;> rfl
  rw [bootSession, delay_eq]
  split
  · rw [initDisplay, txn_writes, probed]
    rfl
  · exact probed

theorem buttonStep_writes (P : Params) (b : Bool) (s : State) :
    buttonStep P b s = writtenFrom (.cstep b) s (buttonStep P b s) := by
  cases h : risingEdge b s
  · rw [buttonStep_noEdge P h]
    rfl
  · rw [buttonStep_edge P h]
    rfl

/-- The result bit is none of a CYCLE's (10_state.md R33). -/
theorem runCycle_res (s : State) : (runCycle Config.params s).res = s.res := by
  have rows : (sampleRows Config.params s).res = s.res := by rw [sampleRows_eq]
  cases h : s.displayPresent
  · rw [runCycle_noDisplay _ h, sampleRow4_eq]
    exact rows
  · have button : (sampleButton Config.params (sampleRows Config.params s)).res = s.res := by
      rw [sampleButton_eq, buttonStep_writes]
      exact rows
    rw [runCycle_display _ h, showFrame, flushFrame_eq]
    exact button

theorem runCycle_writes (s : State) :
    runCycle Config.params s = writtenFrom .cycle s (runCycle Config.params s) := by
  have items := sessionItems_runCycle s
  simp only [sessionItems, Prod.mk.injEq] at items
  obtain ⟨⟨probed, display, address, owner⟩, loaded, commands⟩ := items
  simp only [writtenFrom, ← probed, ← display, ← address, ← owner, ← loaded, ← commands, ← runCycle_res s]

theorem draw_writes {ps : List (Int × Int)} {on : Bool} {s t : State} (h : draw ps on s = .next t) :
    t = { s with fb := t.fb } := by
  rw [← eq_of_draw_eq_next h]

/-- Whatever instruction completes has written its own items only. -/
theorem exec_writes {i : Instr} {s t : State} (h : exec i s = .next t) : t = writtenFrom i s t := by
  cases i with
  | boot =>
    obtain ⟨-, -, rfl⟩ := execBoot_eq_next.1 h
    exact bootSession_writes _ s
  | cycle =>
    obtain ⟨-, -, rfl⟩ := execCycle_eq_next.1 h
    exact runCycle_writes s
  | rds p =>
    obtain ⟨-, rfl⟩ := execRds_eq_next.1 h
    rw [readStable_eq]
    rfl
  | ror m =>
    obtain ⟨-, rfl⟩ := execRor_eq_next.1 h
    rw [rowOr_eq]
    rfl
  | bstart =>
    obtain ⟨-, rfl⟩ := execBstart_eq_next.1 h
    rw [busStart_eq]
    rfl
  | bstop =>
    obtain ⟨-, rfl⟩ := execBstop_eq_next.1 h
    rw [busStop_eq]
    rfl
  | bwrite b =>
    obtain ⟨-, rfl⟩ := execBwrite_eq_next.1 h
    rw [writeByte_eq]
    rfl
  | bprobe =>
    obtain ⟨-, -, rfl⟩ := execBprobe_eq_next.1 h
    exact probe_writes _ s
  | dinit =>
    obtain ⟨-, -, rfl⟩ := execDinit_eq_next.1 h
    exact txn_writes _ _ _ s
  | dclear =>
    cases h
    rfl
  | dsetpix x y on => exact draw_writes h
  | dhline x0 x1 y => exact draw_writes h
  | dvline x y0 y1 => exact draw_writes h
  | dflush =>
    obtain ⟨-, -, -, rfl⟩ := execDflush_eq_next.1 h
    rw [flushFrame_eq]
    rfl
  | dchar x y k c => exact draw_writes (execDchar_eq_next.1 h).2
  | dtext x y k str => exact draw_writes (execDtext_eq_next.1 h).2
  | geval =>
    obtain ⟨-, rfl⟩ := execGeval_eq_next.1 h
    rfl
  | cload =>
    cases h
    rw [loadFamily_eq]
    rfl
  | cstep b =>
    obtain ⟨-, rfl⟩ := execCstep_eq_next.1 h
    exact buttonStep_writes _ b s
  | nvupd v =>
    cases h
    rw [nvUpdate_eq]
    rfl

/-- Settles O57: each clause reads one item, or one group of items, off the frame `writtenFrom`. -/
theorem stateItemsAreWrittenByTheirOperations : Obligations.StateItemsAreWrittenByTheirOperations := by
  intro i s t h
  rw [exec_writes h]
  cases i <;> simp [writtenFrom, isDrawing]

/-- Settles O56: the probe's results belong to BOOT and BPROBE, which run once per session. -/
theorem probeResultIsFixedForTheSession : Obligations.ProbeResultIsFixedForTheSession := by
  intro i s t probed h
  obtain ⟨-, items, -⟩ := stateItemsAreWrittenByTheirOperations i s t h
  rcases items with ⟨display, kept, address, owner⟩ | rfl | rfl
  · exact ⟨kept.trans probed, display, address, owner⟩
  · obtain ⟨unprobed, -⟩ := execBoot_eq_next.1 h
    simp [probed] at unprobed
  · obtain ⟨unprobed, -⟩ := execBprobe_eq_next.1 h
    simp [probed] at unprobed

/-! ### The wires between frames (10_state.md R38 (v), 41_bit_protocol.md R116) -/

/-- A stop sequence, with which every transaction ends, leaves the wires idle (R112, R115). -/
theorem wiresIdle_busStop (P : Params) (s : State) : WiresIdle (busStop P s) := by
  rw [busStop_eq]
  exact ⟨wiresSet_clk _ _ _, wiresSet_dat _ _ _⟩

theorem wiresIdle_txn (P : Params) (a : DeviceAddr) (bs : List Byte) (s : State) : WiresIdle (txn P a bs s) :=
  wiresIdle_busStop P _

theorem wiresIdle_flushFrame (P : Params) (s : State) : WiresIdle (flushFrame P s) :=
  wiresIdle_txn P _ _ _

/-- BOOT that found a display ends with DINIT's frame (R180). -/
theorem wiresIdle_bootSession {P : Params} {s : State} (h : (bootSession P s).displayPresent = true) :
    WiresIdle (bootSession P s) := by
  rw [bootSession] at h ⊢
  split_ifs at h ⊢ with found
  · exact wiresIdle_txn P _ _ _
  · exact absurd h found

/-- CYCLE with a display ends with DFLUSH (R182). -/
theorem wiresIdle_runCycle {P : Params} {s : State} (h : s.displayPresent = true) : WiresIdle (runCycle P s) := by
  rw [runCycle_display P h]
  exact wiresIdle_flushFrame P _

/-- Settles O59. -/
theorem wiresAreIdleBetweenFrames : Obligations.WiresAreIdleBetweenFrames := by
  rintro i s t (rfl | rfl | rfl | rfl | rfl) h display
  · obtain ⟨-, -, rfl⟩ := execBoot_eq_next.1 h
    exact wiresIdle_bootSession display
  · obtain ⟨-, -, rfl⟩ := execCycle_eq_next.1 h
    rw [runCycle_writes] at display
    exact wiresIdle_runCycle display
  · obtain ⟨-, -, rfl⟩ := execDinit_eq_next.1 h
    exact wiresIdle_txn _ _ _ s
  · obtain ⟨-, -, -, rfl⟩ := execDflush_eq_next.1 h
    exact wiresIdle_flushFrame _ s
  · obtain ⟨-, rfl⟩ := execBstop_eq_next.1 h
    exact wiresIdle_busStop _ s

/-! ### The family persisted (10_state.md R38 (vii)) -/

/-- What the persistence condition speaks of. -/
def storeItems (s : State) : Bool × Family × Byte × Nat := (s.familySet, s.family, s.nv, rawWrites s.trace)

theorem storeItems_txn (P : Params) (a : DeviceAddr) (bs : List Byte) (s : State) :
    storeItems (txn P a bs s) = storeItems s := by
  rw [txn_eq P a bs s 0 (levelAt s datPin) (by simp)]
  simp [storeItems]

theorem storeItems_probe (P : Params) (s : State) : storeItems (probe P s) = storeItems s := by
  rw [probe_eq]
  split_ifs <;> simp [storeItems]

/-- BOOT loads the stored family or the default one, and leaves the store (R171, R180). -/
theorem storeItems_bootSession (P : Params) (s : State) : storeItems (bootSession P s) =
    (true, (Family.ofByte s.nv).getD P.factoryDefault, s.nv, rawWrites s.trace) := by
  have probed : storeItems (probe P (loadFamily P (allPinsPlain s))) =
      (true, (Family.ofByte s.nv).getD P.factoryDefault, s.nv, rawWrites s.trace) := by
    rw [storeItems_probe, bootPrepared_eq]
    simp [storeItems]
  rw [bootSession, delay_eq]
  split
  · rwa [initDisplay, storeItems_txn]
  · exact probed

theorem storeItems_sampleRows (s : State) : storeItems (sampleRows Config.params s) = storeItems s := by
  rw [sampleRows_eq]
  simp [storeItems]

theorem storeItems_sampleRow4 (P : Params) (s : State) : storeItems (sampleRow4 P s) = storeItems s := by
  rw [sampleRow4, rowOr_eq]
  simp [storeItems]

theorem storeItems_evalGate (s : State) : storeItems (evalGate s) = storeItems s := by
  simp [storeItems, evalGate]

theorem storeItems_showFrame (P : Params) (s : State) : storeItems (showFrame P s) = storeItems s := by
  rw [showFrame, flushFrame_eq]
  simp [storeItems]

/-- After rows 1 to 3 the button's edge is the one that claims name (R182). -/
theorem risingEdge_cycleButton {s t : State} (h : t.prevBtn = (sampleRows Config.params s).prevBtn) :
    risingEdge (cycleButton s) t = cycleEdge s := by
  rw [risingEdge, cycleEdge, h, sampleRows_eq]

theorem storeItems_sampleButton_noEdge {s : State} (h : cycleEdge s = false) :
    storeItems (sampleButton Config.params (sampleRows Config.params s)) = storeItems s := by
  rw [sampleButton_eq, buttonStep_noEdge, ← storeItems_sampleRows s]
  · simp [storeItems]
  · exact (risingEdge_cycleButton rfl).trans h

theorem sampleButton_edge {s : State} (h : cycleEdge s = true) :
    (sampleButton Config.params (sampleRows Config.params s)).family = s.family.next ∧
      (sampleButton Config.params (sampleRows Config.params s)).nv = s.family.next.code := by
  have rows : (sampleRows Config.params s).family = s.family := by rw [sampleRows_eq]
  rw [sampleButton_eq, buttonStep_edge]
  · exact ⟨congrArg Family.next rows, congrArg (Family.code ∘ Family.next) rows⟩
  · exact (risingEdge_cycleButton rfl).trans h

/-- A CYCLE without a button edge, or without a display, leaves family and store (R182). -/
theorem storeItems_runCycle {s : State} (h : s.displayPresent = false ∨ cycleEdge s = false) :
    storeItems (runCycle Config.params s) = storeItems s := by
  cases hd : s.displayPresent
  · rw [runCycle_noDisplay _ hd, storeItems_evalGate, storeItems_sampleRow4, storeItems_sampleRows]
  · have noEdge : cycleEdge s = false := by simpa [hd] using h
    rw [runCycle_display _ hd, storeItems_showFrame, storeItems_evalGate, storeItems_sampleButton_noEdge noEdge]

theorem runCycle_still {s : State} (h : s.displayPresent = false ∨ cycleEdge s = false) :
    (runCycle Config.params s).family = s.family ∧ (runCycle Config.params s).nv = s.nv := by
  have items := storeItems_runCycle h
  simp only [storeItems, Prod.mk.injEq] at items
  obtain ⟨-, family, nv, -⟩ := items
  exact ⟨family, nv⟩

/-- A button edge advances the family and stores its code (45_config_fsm.md R172). -/
theorem runCycle_edge {s : State} (hd : s.displayPresent = true) (h : cycleEdge s = true) :
    (runCycle Config.params s).family = s.family.next ∧
      (runCycle Config.params s).nv = (runCycle Config.params s).family.code := by
  have shown := storeItems_showFrame Config.params
    (evalGate (sampleButton Config.params (sampleRows Config.params s)))
  rw [storeItems_evalGate, ← runCycle_display _ hd] at shown
  simp only [storeItems, Prod.mk.injEq] at shown
  obtain ⟨-, family, nv, -⟩ := shown
  obtain ⟨next, stored⟩ := sampleButton_edge h
  rw [family, nv, next, stored]
  exact ⟨rfl, rfl⟩

/-- A CYCLE has no button edge to act on, or has a display and an edge. -/
theorem cycle_still_or_edge (s : State) :
    (s.displayPresent = false ∨ cycleEdge s = false) ∨ (s.displayPresent = true ∧ cycleEdge s = true) := by
  cases s.displayPresent <;> cases cycleEdge s <;> simp

theorem runCycle_keeps_equal {s : State} (h : s.nv = s.family.code) :
    (runCycle Config.params s).nv = (runCycle Config.params s).family.code := by
  rcases cycle_still_or_edge s with still | ⟨display, edge⟩
  · obtain ⟨family, nv⟩ := runCycle_still still
    rw [family, nv, h]
  · exact (runCycle_edge display edge).2

/-- A byte that names a family is its code (30_encoding.md R84). -/
theorem eq_code_of_ofByte {v : Byte} {f : Family} (h : Family.ofByte v = some f) : v = f.code := by
  rcases Nat.lt_or_ge v.toNat 5 with valid | invalid
  · obtain ⟨g, named, code⟩ := Family.ofByte_le (Nat.le_of_lt_succ valid)
    cases named.symm.trans h
    exact code.symm
  · rw [Family.ofByte_gt invalid] at h
    contradiction

theorem Persisted.of_equal {s : State} (h : s.nv = s.family.code) : Persisted s :=
  ⟨fun _ => .inl h, fun _ => .inl h⟩

theorem Persisted.congr {s t : State} (hs : Persisted s) (h : storeItems t = storeItems s) : Persisted t := by
  simp only [storeItems, Prod.mk.injEq] at h
  obtain ⟨loaded, family, nv, raw⟩ := h
  constructor <;> rw [loaded, family, nv, raw]
  · exact hs.unloaded
  · exact hs.loaded

/-- With a byte in the store that names no family nothing has been written (20_memory.md R65). -/
theorem Persisted.no_write {s : State} (hs : Persisted s) (invalid : Family.ofByte s.nv = none) :
    rawWrites s.trace = 0 := by
  have differs : s.nv ≠ s.family.code := fun h => by simp [h] at invalid
  cases loaded : s.familySet
  · exact (hs.unloaded loaded).resolve_left differs
  · exact ((hs.loaded loaded).resolve_left differs).2

/-- BOOT leaves the store, and if its byte names a family that is the family after it (R171, R180). -/
theorem bootSession_loads_stored (s : State) :
    (bootSession Config.params s).nv = s.nv ∧
      ∀ f, Family.ofByte s.nv = some f →
        (bootSession Config.params s).nv = (bootSession Config.params s).family.code := by
  have items := storeItems_bootSession Config.params s
  simp only [storeItems, Prod.mk.injEq] at items
  obtain ⟨-, family, nv, -⟩ := items
  refine ⟨nv, fun f named => ?_⟩
  rw [nv, family, named]
  exact eq_code_of_ofByte named

/-- BOOT keeps the persistence condition: it loads what the store names, or finds a byte that names nothing (R171). -/
theorem Persisted.after_bootSession {s : State} (hs : Persisted s) : Persisted (bootSession Config.params s) := by
  cases named : Family.ofByte s.nv with
  | some f => exact .of_equal ((bootSession_loads_stored s).2 f named)
  | none =>
    have items := storeItems_bootSession Config.params s
    simp only [storeItems, Prod.mk.injEq] at items
    obtain ⟨loaded, -, nv, raw⟩ := items
    constructor <;> rw [loaded, nv, raw]
    · nofun
    · exact fun _ => .inr ⟨named, hs.no_write named⟩

/-- CYCLE keeps the persistence condition: an edge makes byte and family equal, else neither changes (R172). -/
theorem Persisted.after_runCycle {s : State} (hs : Persisted s) : Persisted (runCycle Config.params s) := by
  rcases cycle_still_or_edge s with still | ⟨display, edge⟩
  · exact hs.congr (storeItems_runCycle still)
  · exact .of_equal (runCycle_edge display edge).2

/-- Settles O55: the sequencer issues BOOT before the probe and CYCLE after it. -/
theorem sequencerKeepsTheFamilyPersisted : Obligations.SequencerKeepsTheFamilyPersisted := by
  intro s t idle h
  rw [step_no_command idle, sequencerInstr] at h
  cases probed : s.probed
  · rw [probed] at h
    obtain ⟨-, -, rfl⟩ := execBoot_eq_next.1 h
    obtain ⟨nv, equal⟩ := bootSession_loads_stored s
    refine ⟨.after_bootSession, fun stored => equal s.family ?_, nofun, nofun, fun _ => ⟨nv, fun valid => ?_⟩⟩
    · rw [stored, Family.ofByte_code]
    · obtain ⟨f, named, -⟩ := Family.ofByte_le valid
      exact equal f named
  · rw [probed] at h
    obtain ⟨-, -, rfl⟩ := execCycle_eq_next.1 h
    refine ⟨.after_runCycle, runCycle_keeps_equal, fun _ => runCycle_edge, fun _ => runCycle_still, nofun⟩

end Sys2Proof.Machine

/-! PROOFS of the memory family (20_memory.md): how often a CYCLE writes the non-volatile store (R65). -/

namespace Sys2Proof.Machine

/-- CSTEP writes only on an edge, and then once: its update compares first (45_config_fsm.md R172, R173). -/
theorem rawWrites_buttonStep_le (P : Params) (b : Bool) (s : State) :
    rawWrites (buttonStep P b s).trace ≤ rawWrites s.trace + 1 := by
  cases h : risingEdge b s
  · rw [buttonStep_noEdge P h]
    exact Nat.le_succ _
  · rw [buttonStep_edge P h]
    by_cases same : s.nv = s.family.next.code <;> simp [same]

/-- Of sampling the button only its CSTEP can write the store (R182). -/
theorem rawWrites_sampleButton_le (P : Params) (s : State) :
    rawWrites (sampleButton P s).trace ≤ rawWrites s.trace + 1 := by
  have button := rawWrites_buttonStep_le P
    (readStable P buttonPin { s with in4 := false, rowsSet := true }).1
    (readStable P buttonPin { s with in4 := false, rowsSet := true }).2
  have sampled : rawWrites (readStable P buttonPin { s with in4 := false, rowsSet := true }).2.trace =
      rawWrites s.trace := by
    rw [readStable_eq]
    simp
  rwa [sampled] at button

theorem rawWrites_eq_of_storeItems_eq {s t : State} (h : storeItems t = storeItems s) :
    rawWrites t.trace = rawWrites s.trace :=
  congrArg (·.2.2.2) h

/-- A CYCLE without a display has no part that writes the store (45_config_fsm.md R176). -/
theorem rawWrites_runCycle_noDisplay {s : State} (hd : s.displayPresent = false) :
    rawWrites (runCycle Config.params s).trace = rawWrites s.trace :=
  rawWrites_eq_of_storeItems_eq (storeItems_runCycle (.inl hd))

/-- Of a CYCLE with a display only sampling the button can write the store (R176, R182). -/
theorem rawWrites_runCycle_display_le {s : State} (hd : s.displayPresent = true) :
    rawWrites (runCycle Config.params s).trace ≤ rawWrites s.trace + 1 := by
  have button := rawWrites_sampleButton_le Config.params (sampleRows Config.params s)
  have rows := rawWrites_eq_of_storeItems_eq (storeItems_sampleRows s)
  have shown := rawWrites_eq_of_storeItems_eq ((storeItems_showFrame Config.params
    (evalGate (sampleButton Config.params (sampleRows Config.params s)))).trans (storeItems_evalGate _))
  rw [← runCycle_display _ hd] at shown
  rwa [← shown, rows] at button

theorem rawWrites_runCycle_le (s : State) :
    rawWrites (runCycle Config.params s).trace ≤ rawWrites s.trace + 1 := by
  cases hd : s.displayPresent
  · exact (rawWrites_runCycle_noDisplay hd).le.trans (Nat.le_succ _)
  · exact rawWrites_runCycle_display_le hd

/-- Settles O50: a CYCLE appends to the trace, and the count of raw writes over the whole trace grows by at most one. -/
theorem cycleWritesTheStoreAtMostOnce : Obligations.CycleWritesTheStoreAtMostOnce := by
  intro s t h
  obtain ⟨-, -, rfl⟩ := execCycle_eq_next.1 h
  obtain ⟨es, appended⟩ := trace_grows_runCycle s
  have counted : rawWrites (runCycle Config.params s).trace = rawWrites s.trace + rawWrites es := by
    rw [← appended, rawWrites_append]
  refine ⟨es, appended.symm, ?_, fun hd => ?_⟩
  · have bound := rawWrites_runCycle_le s
    omega
  · have unchanged := rawWrites_runCycle_noDisplay hd
    omega

end Sys2Proof.Machine

/-! PROOFS of the encoding family (30_encoding.md): decoding and encoding a command word are inverse to each other (R72
to R76), a step runs the first pending word (R70), and the reserved encodings are refused (R75). -/

namespace Sys2Proof

/-! ### One operand format at a time: what a format's decoder reads is what its encoder writes (R73) -/

theorem decodePin_eq_ok {p : InPin} {bytes rest : List Byte} :
    decodePin bytes = .ok (p, rest) ↔ BitVec.ofNat 8 p.val :: rest = bytes := by
  cases bytes with
  | nil => simp [decodePin]
  | cons b tail =>
    have pin := p.isLt
    have index : BitVec.ofNat 8 p.val = b ↔ b.toNat = p.val := by
      rw [← BitVec.toNat_inj, BitVec.toNat_ofNat]
      omega
    rw [decodePin, List.cons.injEq, index]
    split_ifs with valid
    · simp [Fin.ext_iff, eq_comm]
    all_goals
      simp only [false_iff, not_and]
      omega

theorem decodeMask_eq_ok {m : BitVec 10} {bytes rest : List Byte} :
    decodeMask bytes = .ok (m, rest) ↔
      BitVec.ofNat 8 (m.toNat / 256) :: BitVec.ofNat 8 m.toNat :: rest = bytes := by
  match bytes with
  | [] => simp [decodeMask]
  | [_] => simp [decodeMask]
  | hi :: lo :: tail =>
    have mask := m.isLt
    have high := hi.isLt
    have low := lo.isLt
    rw [decodeMask]
    simp only [List.cons.injEq, ← BitVec.toNat_inj, BitVec.toNat_ofNat]
    split_ifs with padding
    · simp only [Except.ok.injEq, Prod.mk.injEq, ← BitVec.toNat_inj, BitVec.toNat_ofNat,
        ← and_assoc, eq_comm (a := tail)]
      refine and_congr_left fun _ => ?_
      omega
    · simp only [false_iff, not_and]
      omega

theorem decodeByte_eq_ok {b : Byte} {bytes rest : List Byte} :
    decodeByte bytes = .ok (b, rest) ↔ b :: rest = bytes := by
  cases bytes with
  | nil => simp [decodeByte]
  | cons b' tail => simp [decodeByte, eq_comm]

/-- A bit's byte has seven zeros of padding before it (R73). -/
theorem byteOfBit_eq {v : Bool} {b : Byte} :
    (if v then 1 else 0) = b ↔ b.toNat < 2 ∧ b.getLsbD 0 = v := by
  rw [BitVec.getLsbD, Nat.testBit_zero]
  cases v
  · simp [← BitVec.toNat_inj]
    omega
  · simp [← BitVec.toNat_inj]
    omega

theorem decodeBit_eq_ok {v : Bool} {bytes rest : List Byte} :
    decodeBit bytes = .ok (v, rest) ↔ (if v then 1 else 0) :: rest = bytes := by
  cases bytes with
  | nil => simp [decodeBit]
  | cons b tail =>
    rw [decodeBit, List.cons.injEq, byteOfBit_eq]
    split_ifs with padding <;> simp [padding, eq_comm]

theorem decodeTwoCoords_eq_ok {x y : Coord} {bytes rest : List Byte} :
    decodeTwoCoords bytes = .ok ((x, y), rest) ↔ bytesOfCoord x ++ bytesOfCoord y ++ rest = bytes := by
  constructor
  · intro h
    unfold decodeTwoCoords at h
    split at h
    · cases h
      simp [bytesOfCoord_coord]
    · contradiction
  · rintro rfl
    simp only [bytesOfCoord, List.cons_append, List.nil_append, decodeTwoCoords, coordOfBytes_bytes]

theorem decodeXY_eq_ok {x y : Coord} {on : Bool} {bytes rest : List Byte} :
    decodeXY bytes = .ok ((x, y, on), rest) ↔
      bytesOfCoord x ++ bytesOfCoord y ++ [if on then 1 else 0] ++ rest = bytes := by
  constructor
  · intro h
    unfold decodeXY at h
    split at h
    · contradiction
    · next coords =>
      split at h
      · contradiction
      · next bit =>
        cases h
        rw [← decodeTwoCoords_eq_ok.1 coords, ← decodeBit_eq_ok.1 bit]
        simp
  · rintro rfl
    simp only [List.append_assoc, decodeXY]
    rw [← List.append_assoc, decodeTwoCoords_eq_ok.2 rfl]
    simp only [List.singleton_append, decodeBit_eq_ok.2 rfl]

theorem decodeLine_eq_ok {a e f : Coord} {bytes rest : List Byte} :
    decodeLine bytes = .ok ((a, e, f), rest) ↔
      bytesOfCoord a ++ bytesOfCoord e ++ bytesOfCoord f ++ rest = bytes := by
  constructor
  · intro h
    unfold decodeLine at h
    split at h
    · cases h
      simp [bytesOfCoord_coord]
    · contradiction
  · rintro rfl
    simp only [bytesOfCoord, List.cons_append, List.nil_append, decodeLine, coordOfBytes_bytes]

theorem decodeHead_eq_ok {x y : Coord} {k c : Byte} {bytes rest : List Byte} :
    decodeHead bytes = .ok ((x, y, k, c), rest) ↔
      bytesOfCoord x ++ bytesOfCoord y ++ [k, c] ++ rest = bytes := by
  constructor
  · intro h
    unfold decodeHead at h
    split at h
    · cases h
      simp [bytesOfCoord_coord]
    · contradiction
  · rintro rfl
    simp only [bytesOfCoord, List.cons_append, List.nil_append, decodeHead, coordOfBytes_bytes]

/-- Format T reads as many characters as its 8-bit count says, so a string it reads has at most 255 (R74, R76). -/
theorem decodeText_eq_ok {x y : Coord} {k : Byte} {str bytes rest : List Byte} :
    decodeText bytes = .ok ((x, y, k, str), rest) ↔ str.length ≤ 255 ∧
      bytesOfCoord x ++ bytesOfCoord y ++ [k, BitVec.ofNat 8 str.length] ++ str ++ rest = bytes := by
  constructor
  · intro h
    unfold decodeText at h
    split at h
    · contradiction
    · next x y k n chars head =>
      split_ifs at h with announced
      cases h
      have count : (chars.take n.toNat).length = n.toNat := List.length_take_of_le announced
      rw [count, BitVec.ofNat_toNat, BitVec.setWidth_eq, List.append_assoc, List.take_append_drop]
      exact ⟨Nat.le_of_lt_succ n.isLt, decodeHead_eq_ok.1 head⟩
  · rintro ⟨short, rfl⟩
    have count : (BitVec.ofNat 8 str.length).toNat = str.length :=
      Nat.mod_eq_of_lt (Nat.lt_succ_of_le short)
    rw [List.append_assoc, decodeText, decodeHead_eq_ok.2 rfl]
    simp [count]

/-! ### The command word (R71, R72) -/

theorem Decoded.into_eq_ok {α : Type} {f : α → Instr} {d : Decoded α} {i : Instr} {rest : List Byte} :
    d.into f = .ok (i, rest) ↔ ∃ a, d = .ok (a, rest) ∧ f a = i := by
  constructor
  · exact Decoded.into_ok
  · rintro ⟨a, rfl, rfl⟩
    rfl

/-- The decoder reads an instruction under its own operation code only (R71). -/
theorem opcode_of_decode {op : Byte} {tail rest : List Byte} {i : Instr}
    (h : decode (op :: tail) = .ok (i, rest)) : i.opcode = op := by
  rw [decode] at h
  split at h
  -- the codes of the formats with operands
  case h_3 | h_4 | h_7 | h_11 | h_12 | h_13 | h_15 | h_16 | h_19 | h_20 =>
    obtain ⟨_, -, rfl⟩ := Decoded.into_ok h
    exact (BitVec.eq_of_toNat_eq ‹_›).symm
  case h_21 => contradiction
  all_goals
    cases h
    exact (BitVec.eq_of_toNat_eq ‹_›).symm

/-- The operation codes that R71 does not list, as the ranges of R75. -/
def ReservedCode (code : Nat) : Prop :=
  code = 0x00 ∨ (0x03 ≤ code ∧ code ≤ 0x0F) ∨ (0x12 ≤ code ∧ code ≤ 0x1F) ∨ (0x24 ≤ code ∧ code ≤ 0x2F) ∨
    (0x36 ≤ code ∧ code ≤ 0x3F) ∨ (0x42 ≤ code ∧ code ≤ 0x4F) ∨ (0x51 ≤ code ∧ code ≤ 0x5F) ∨ 0x63 ≤ code

theorem decode_reservedCode {op : Byte} {tail : List Byte} (reserved : ReservedCode op.toNat) :
    decode (op :: tail) = .error (.reservedCode op) := by
  rw [decode]
  unfold ReservedCode at reserved
  split
  case h_21 => rfl
  all_goals omega

/-- After its operation code an instruction is read from its operand bytes and from no others (R73). -/
theorem decode_opcode_cons {i : Instr} {tail rest : List Byte} :
    decode (i.opcode :: tail) = .ok (i, rest) ↔ i.wellFormed = true ∧ i.operandBytes ++ rest = tail := by
  cases i with
  | rds p => simp [decode, Instr.opcode, Decoded.into_eq_ok, decodePin_eq_ok, Instr.wellFormed, Instr.operandBytes]
  | ror m => simp [decode, Instr.opcode, Decoded.into_eq_ok, decodeMask_eq_ok, Instr.wellFormed, Instr.operandBytes]
  | bwrite | nvupd =>
    simp [decode, Instr.opcode, Decoded.into_eq_ok, decodeByte_eq_ok, Instr.wellFormed, Instr.operandBytes]
  | dsetpix x y on =>
    simp [decode, Instr.opcode, Decoded.into_eq_ok, decodeXY_eq_ok, Instr.wellFormed, Instr.operandBytes,
      -Bool.exists_bool]
  | dhline | dvline =>
    simp [decode, Instr.opcode, Decoded.into_eq_ok, decodeLine_eq_ok, Instr.wellFormed, Instr.operandBytes]
  | dchar x y k c =>
    simp [decode, Instr.opcode, Decoded.into_eq_ok, decodeHead_eq_ok, Instr.wellFormed, Instr.operandBytes]
  | dtext x y k str =>
    simp [decode, Instr.opcode, Decoded.into_eq_ok, decodeText_eq_ok, Instr.wellFormed, Instr.operandBytes]
  | cstep b => simp [decode, Instr.opcode, Decoded.into_eq_ok, decodeBit_eq_ok, Instr.wellFormed, Instr.operandBytes]
  | _ => simp [decode, Instr.opcode, Instr.wellFormed, Instr.operandBytes, eq_comm]

/-- Decoding reads exactly the command words of the well-formed instructions (R72 to R76). -/
theorem decode_eq_ok {i : Instr} {bytes rest : List Byte} :
    decode bytes = .ok (i, rest) ↔ i.wellFormed = true ∧ encode i ++ rest = bytes := by
  cases bytes with
  | nil => simp [decode, encode]
  | cons op tail =>
    rw [encode, List.cons_append, List.cons.injEq]
    constructor
    · intro read
      obtain rfl := opcode_of_decode read
      obtain ⟨wf, operands⟩ := decode_opcode_cons.1 read
      exact ⟨wf, rfl, operands⟩
    · rintro ⟨wf, rfl, operands⟩
      exact decode_opcode_cons.2 ⟨wf, operands⟩

/-- Settles O8: the word of a well-formed instruction is among those the decoder reads. -/
theorem decodeInvertsEncode : Obligations.DecodeInvertsEncode :=
  fun _ _ wf => decode_eq_ok.2 ⟨wf, rfl⟩

/-- Settles O9: the decoder reads no other words. -/
theorem encodeInvertsDecode : Obligations.EncodeInvertsDecode :=
  fun _ _ _ => decode_eq_ok.1

end Sys2Proof

namespace Sys2Proof.Machine

/-- Settles O3: a pending stream is fetched through the decoder. -/
theorem stepRunsThePendingCommand : Obligations.StepRunsThePendingCommand := by
  intro s i rest pending read
  simp only [step, fetch_pending pending, read]

theorem step_undecodable_cons {s : State} {op : Byte} {tail : List Byte} {e : DecodeError}
    (pending : s.commands = op :: tail) (unread : decode (op :: tail) = .error e) :
    step s = .refused (.undecodable e) :=
  step_undecodable (by simp [pending]) (by rwa [pending])

/-- Settles O7: a reserved code fails in the code table, the other words in their format's operand decoder. -/
theorem reservedEncodingsAreRefused : Obligations.ReservedEncodingsAreRefused := by
  intro s rest
  refine ⟨fun op pending reserved => ?_, fun b pending above below => ?_, fun b pending padding => ?_,
    fun hi lo pending padding => ?_, fun b pending padding => ?_, fun x1 x0 y1 y0 b pending padding => ?_⟩
    <;> apply step_undecodable_cons pending
  · exact decode_reservedCode reserved
  · simp [decode, decodePin, Decoded.into, Nat.not_lt.2 above, Nat.lt_succ_of_le below]
  · have noIndex : ¬b.toNat < 10 := by omega
    simp [decode, decodePin, Decoded.into, noIndex, Nat.not_lt.2 padding]
  · simp [decode, decodeMask, Decoded.into, Nat.not_lt.2 padding]
  · simp [decode, decodeBit, Decoded.into, Nat.not_lt.2 padding]
  · simp [decode, decodeXY, decodeTwoCoords, decodeBit, Decoded.into, Nat.not_lt.2 padding]

end Sys2Proof.Machine

/-! PROOFS of the sampler family (40_sampler.md): RDS answers the majority of its three reads (R101), ROR samples its group
in ascending order (R102), and its value is the OR of the debounced pins under both settings of SHORT_CIRCUIT (R104). -/

namespace Sys2Proof.Machine

/-- Settles O10: past its ownership check RDS is one debounced read. -/
theorem rdsTakesTheMajorityOfThreeReads : Obligations.RdsTakesTheMajorityOfThreeReads := by
  intro p s free
  rw [← ownedByDriver_single, Bool.not_eq_true] at free
  exact execRds_eq_next.2 ⟨free, by rw [readStable_eq]⟩

/-- Settles O11: past its ownership check ROR is the sampling of one row, from the next read on. -/
theorem rorSamplesItsGroupInOrder : Obligations.RorSamplesItsGroupInOrder := by
  intro m s free
  rw [← ownedByDriver_mask, Bool.not_eq_true] at free
  exact execRor_eq_next.2 ⟨free, by rw [rowOr_from _ s s 0 rfl rfl]⟩

/-! ### The value of a group (R103, R104) -/

/-- Leaving out the pins behind the first stable-true one does not change the OR of the group (R103). -/
theorem anyDebounced_sampledPins (sc : Bool) (s : State) (n : Nat) (ps : List InPin) :
    anyDebounced s n (sampledPins sc s n ps) = anyDebounced s n ps := by
  induction ps generalizing n with
  | nil => rfl
  | cons p ps ih =>
    rw [sampledPins]
    split
    · next stop =>
      have high : debouncedAt s p n = true := (Bool.and_eq_true_iff.1 stop).1
      simp [anyDebounced, high]
    · simp only [anyDebounced, ih]

/-- Three answers listed for a pin's reads decide its debounced value. -/
theorem debouncedAt_of_answers {s : State} {n : Nat} {a b c : Bool} {rest : List Bool} (p : InPin)
    (answers : s.pinAnswers.drop n = a :: b :: c :: rest) : debouncedAt s p n = maj3 a b c := by
  simp [debouncedAt, levelAt, ← List.drop_drop, answers]

/-- With three answers listed for each pin of a group, the OR of the group is the OR of their majorities. -/
theorem anyDebounced_of_answers {s : State} {n : Nat} {ps : List InPin} {rest : List Bool}
    {samples : InPin → Bool × Bool × Bool}
    (answers : s.pinAnswers.drop n =
      ps.flatMap (fun p => [(samples p).1, (samples p).2.1, (samples p).2.2]) ++ rest) :
    anyDebounced s n ps = ps.any fun p => maj3 (samples p).1 (samples p).2.1 (samples p).2.2 := by
  induction ps generalizing n with
  | nil => rfl
  | cons p ps ih =>
    rw [anyDebounced, List.any_cons, debouncedAt_of_answers p answers, ih]
    -- the later pins' answers begin three reads on
    rw [← List.drop_drop, answers]
    rfl

/-- Settles O12: the row value that ROR answers (O11) is the OR of the majorities of the answers it was given. -/
theorem rorIsTheOrOfDebouncedPins : Obligations.RorIsTheOrOfDebouncedPins := by
  intro m s rest samples free answers
  refine ⟨_, rorSamplesItsGroupInOrder m s free, ?_⟩
  change rowValue s 0 (pinsOfMask m) = true ↔ _
  rw [rowValue, anyDebounced_sampledPins, anyDebounced_of_answers (n := 0) answers]
  simp only [List.any_eq_true, mem_pinsOfMask]

end Sys2Proof.Machine

/-! PROOFS of the bit protocol family (41_bit_protocol.md): the whole effect of BSTART, BSTOP and BWRITE (R111 to R113),
which candidate BPROBE latches (R114) and what it finds against the reference responder (R120), and the order of probe,
boot and the operations that need the probe. -/

namespace Sys2Proof.Machine

/-! ### Start, stop, one byte (R111 to R113) -/

/-- Settles O14: past its ownership check BSTART is the start sequence. -/
theorem bstartDrivesTheStartSequence : Obligations.BstartDrivesTheStartSequence :=
  fun s owned => execBstart_eq_next.2 ⟨owned, busStart_eq Config.params s⟩

/-- Settles O15: past its ownership check BSTOP is the stop sequence. -/
theorem bstopDrivesTheStopSequence : Obligations.BstopDrivesTheStopSequence :=
  fun s owned => execBstop_eq_next.2 ⟨owned, busStop_eq Config.params s⟩

/-- Settles O16: the data latch keeps its value exactly if no bit of the byte pulls the wire low. -/
theorem bwriteShiftsTheByteAndSamplesTheAcknowledge :
    Obligations.BwriteShiftsTheByteAndSamplesTheAcknowledge := by
  intro b s owned
  exact execBwrite_eq_next.2 ⟨owned, by rw [writeByte_eq, bitsMsbFirst_all]⟩

/-! ### The probe (R114, R120) -/

/-- Settles O17: the first sample decides between the candidates, the second only if the first is no acknowledge. -/
theorem bprobeLatchesTheFirstAcknowledge : Obligations.BprobeLatchesTheFirstAcknowledge := by
  intro s unprobed owned
  refine ⟨fun first => ?_, fun first second => ?_⟩ <;> refine execBprobe_eq_next.2 ⟨unprobed, owned, ?_⟩
  · rw [probe_eq, if_neg (by simp [first])]
  · rw [probe_eq, if_pos first, if_neg (by simp [second])]

/-- A listed answer is the level its read sees (20_memory.md R58; log 8). -/
theorem levelAt_of_answer {s : State} {p : InPin} {i : Nat} {v : Bool} (h : s.pinAnswers[i]? = some v) :
    levelAt s p i = v := by
  rw [levelAt, List.headD_eq_head?_getD, List.head?_drop, h, Option.getD_some]

/-- The reference responder pulls the acknowledge of an address byte low exactly for a device that is present (R120,
30_encoding.md R86). -/
theorem responderLevels_addressByte (present : List DeviceAddr) (a : DeviceAddr) :
    responderLevels present [addressByte a] = [!decide (a ∈ present)] := by
  rw [responderLevels, List.map_singleton, responderSelects_addressByte]

/-- Settles O19: against the responder the two samples say which candidates are present, and they decide the probe. -/
theorem probeFindsTheFirstPresentCandidate : Obligations.ProbeFindsTheFirstPresentCandidate := by
  intro present s rest unprobed owned answers
  rw [responderLevels_addressByte, responderLevels_addressByte] at answers
  have first : levelAt s datPin 0 = !decide (Config.params.addrA ∈ present) := levelAt_of_answer (by simp [answers])
  have second : levelAt s datPin 1 = !decide (Config.params.addrB ∈ present) := levelAt_of_answer (by simp [answers])
  refine ⟨_, execBprobe_eq_next.2 ⟨unprobed, owned, rfl⟩, ?_⟩
  rw [probe_eq, first, second]
  by_cases presentA : Config.params.addrA ∈ present
  · simp [presentA]
  · by_cases presentB : Config.params.addrB ∈ present
    · simp [presentA, presentB]
    · simp [presentA, presentB]

/-! ### Once per session, and the probe first (R114, R161, R180, R182) -/

/-- Settles O21: each of the four operations checks `probed` before anything else. -/
theorem probeOrdersTheSession : Obligations.ProbeOrdersTheSession := by
  refine fun s => ⟨fun probed => ⟨if_pos probed, if_pos probed⟩, fun unprobed => ?_⟩
  have undecided : (!s.probed) = true := by rw [unprobed, Bool.not_false]
  exact ⟨if_pos undecided, if_pos undecided⟩

end Sys2Proof.Machine

/-! PROOFS of the display controller family (42_display_controller.md): the frames of DINIT and DFLUSH (R131, R137), which
pixels and bytes DCLEAR and the three figure operations write (R132 to R135), the need of a display (R130), and that a
picture drawn after DCLEAR depends on its drawing operations alone (R138). -/

namespace Sys2Proof.Machine

/-! ### The display and its frames (R130, R131, R137) -/

/-- Settles O28: each of the three operations checks the display before anything else. -/
theorem displayOperationsNeedADisplay : Obligations.DisplayOperationsNeedADisplay := by
  intro s absent
  have missing : (!s.displayPresent) = true := by rw [absent, Bool.not_false]
  exact ⟨if_pos missing, if_pos missing, fun b => if_pos missing⟩

/-- Settles O22: past its checks DINIT is one transaction, whose samples are the session's next pin reads. -/
theorem dinitSendsOneCommandFrame : Obligations.DinitSendsOneCommandFrame := by
  intro s present owned
  exact execDinit_eq_next.2 ⟨present, owned, txn_eq _ _ _ s 0 (levelAt s datPin) fun i => by rw [Nat.zero_add]⟩

/-- Settles O23: past its checks DFLUSH is the two transactions of a flush. -/
theorem dflushSendsTheWholeFramebuffer : Obligations.DflushSendsTheWholeFramebuffer := by
  rintro s present owned cleared window frame rfl rfl
  exact execDflush_eq_next.2 ⟨present, owned, cleared, flushFrame_eq Config.params s⟩

/-! ### Drawing (R132 to R135) -/

/-- Settles O24: a cleared framebuffer lists no byte, so each one reads 0x00. -/
theorem dclearClearsEveryByte : Obligations.DclearClearsEveryByte :=
  fun s => ⟨clearFrame s, rfl, rfl, Memory.read_nil, fun x y => by simp [pixelAt]⟩

/-- With a cleared framebuffer a drawing operation completes, writes its pixels on the screen, and changes nothing
else. -/
theorem draw_writes_its_pixels (ps : List (Int × Int)) (on : Bool) {s : State} (cleared : s.fbCleared = true) :
    ∃ t, draw ps on s = .next t ∧ t = { s with fb := t.fb } ∧
      (∀ u v, pixelAt t.fb u v = if onScreen u v = true ∧ (u, v) ∈ ps then on else pixelAt s.fb u v) ∧
      ∀ a, (∀ p ∈ ps, onScreen p.1 p.2 = true → a ≠ pixelByte p.1 p.2) → t.fb.read a = s.fb.read a :=
  ⟨_, draw_next ps on s cleared, rfl, pixelAt_paint ps on s.fb, fun _ => read_paint_other⟩

/-- Settles O25: DSETPIX draws the list of its one pixel. -/
theorem dsetpixWritesItsOwnPixel : Obligations.DsetpixWritesItsOwnPixel := by
  refine fun x y on s => ⟨fun cleared => ?_, fun outside => draw_offScreen on s (List.forall_mem_singleton.2 outside)⟩
  obtain ⟨t, completes, rest, pixels, bytes⟩ := draw_writes_its_pixels [(x.toInt, y.toInt)] on cleared
  refine ⟨t, completes, rest, fun u v => ?_, fun a other => bytes a (List.forall_mem_singleton.2 other)⟩
  simp only [pixels, List.mem_singleton, Prod.mk.injEq]

/-- Settles O26: a pixel of the segment is a pixel that DHLINE draws. -/
theorem dhlineTurnsOnItsSegment : Obligations.DhlineTurnsOnItsSegment := by
  intro x0 x1 y s cleared
  obtain ⟨t, completes, rest, pixels, bytes⟩ :=
    draw_writes_its_pixels (hlinePixels x0.toInt x1.toInt y.toInt) true cleared
  refine ⟨t, completes, rest, fun u v => ?_, fun a other => bytes a fun (u, v) drawn visible => ?_⟩
  · simp only [pixels, mem_hlinePixels]
  · obtain ⟨rfl, low, high⟩ := (mem_hlinePixels ..).1 drawn
    exact other u visible low high

/-- Settles O27: a pixel of the segment is a pixel that DVLINE draws. -/
theorem dvlineTurnsOnItsSegment : Obligations.DvlineTurnsOnItsSegment := by
  intro x y0 y1 s cleared
  obtain ⟨t, completes, rest, pixels, bytes⟩ :=
    draw_writes_its_pixels (vlinePixels x.toInt y0.toInt y1.toInt) true cleared
  refine ⟨t, completes, rest, fun u v => ?_, fun a other => bytes a fun (u, v) drawn visible => ?_⟩
  · simp only [pixels, mem_vlinePixels]
  · obtain ⟨rfl, low, high⟩ := (mem_vlinePixels ..).1 drawn
    exact other v visible low high

/-! ### A picture depends on its drawing operations alone (R138) -/

theorem runInstrs_cons_eq_next {i : Instr} {is : List Instr} {s t : State} :
    runInstrs (i :: is) s = .next t ↔ ∃ u, exec i s = .next u ∧ runInstrs is u = .next t := by
  rw [runInstrs]
  cases exec i s <;> simp

/-- What a drawing operation paints is given by its operands: the pixels are the same from every state in which it
completes. -/
theorem exec_drawing_paints {d : Instr} (drawing : isDrawing d = true) :
    ∃ ps on, ∀ s t, exec d s = .next t → { s with fb := paint ps on s.fb } = t := by
  cases d with
  | dsetpix x y on => exact ⟨_, _, fun _ _ => eq_of_draw_eq_next⟩
  | dhline x0 x1 y => exact ⟨_, _, fun _ _ => eq_of_draw_eq_next⟩
  | dvline x y0 y1 => exact ⟨_, _, fun _ _ => eq_of_draw_eq_next⟩
  | dchar x y k c => exact ⟨_, _, fun _ _ h => eq_of_draw_eq_next (execDchar_eq_next.1 h).2⟩
  | dtext x y k str => exact ⟨_, _, fun _ _ h => eq_of_draw_eq_next (execDtext_eq_next.1 h).2⟩
  | _ => cases drawing

/-- Drawing operations that complete from two states with one framebuffer leave one framebuffer. -/
theorem fb_runInstrs_congr {ds : List Instr} (drawing : ∀ d ∈ ds, isDrawing d = true) {s s' t t' : State}
    (same : s.fb = t.fb) (hs : runInstrs ds s = .next s') (ht : runInstrs ds t = .next t') : s'.fb = t'.fb := by
  induction ds generalizing s t with
  | nil =>
    cases hs
    cases ht
    exact same
  | cons d ds ih =>
    obtain ⟨first, others⟩ := List.forall_mem_cons.1 drawing
    obtain ⟨s₁, draws_s, runs_s⟩ := runInstrs_cons_eq_next.1 hs
    obtain ⟨t₁, draws_t, runs_t⟩ := runInstrs_cons_eq_next.1 ht
    obtain ⟨ps, on, paints⟩ := exec_drawing_paints first
    have painted : s₁.fb = t₁.fb := by rw [← paints s s₁ draws_s, ← paints t t₁ draws_t, same]
    exact ih others painted runs_s runs_t

/-- Settles O30: DCLEAR leaves one framebuffer from every state. -/
theorem drawingIsDeterminedByItsCalls : Obligations.DrawingIsDeterminedByItsCalls := by
  intro ds s s' t t' drawing hs ht
  obtain ⟨s₁, clears_s, runs_s⟩ := runInstrs_cons_eq_next.1 hs
  obtain ⟨t₁, clears_t, runs_t⟩ := runInstrs_cons_eq_next.1 ht
  cases clears_s
  cases clears_t
  have cleared : (clearFrame s).fb = (clearFrame t).fb := rfl
  exact fb_runInstrs_congr drawing cleared runs_s runs_t

end Sys2Proof.Machine

/-! PROOFS of the text renderer family (43_text_renderer.md): scale 0 (R151), which pixels and bytes DCHAR and DTEXT
write (R152, R153), and that a character replaced by an unmapped one leaves the places of the others (R154). -/

namespace Sys2Proof.Machine

/-! ### Scale (R151) -/

/-- Settles O33: both operations check the scale before anything else. -/
theorem scaleZeroIsRefused : Obligations.ScaleZeroIsRefused := by
  intro x y c str s
  have dchar : execDchar x y 0 c s = .refused .scaleZero := if_pos rfl
  have dtext : execDtext x y 0 str s = .refused .scaleZero := if_pos rfl
  exact ⟨dchar, dtext⟩

theorem exec_dchar_eq_draw {k : Byte} (scale : k ≠ 0) (x y : Coord) (c : Byte) (s : State) :
    exec (.dchar x y k c) s = draw (charPixels Config.params x.toInt y.toInt k.toNat c) true s := by
  change execDchar x y k c s = _
  exact if_neg fun zero => scale (BitVec.eq_of_toNat_eq zero)

theorem exec_dtext_eq_draw {k : Byte} (scale : k ≠ 0) (x y : Coord) (str : List Byte) (s : State) :
    exec (.dtext x y k str) s = draw (textPixels Config.params x.toInt y.toInt k.toNat str) true s := by
  change execDtext x y k str s = _
  exact if_neg fun zero => scale (BitVec.eq_of_toNat_eq zero)

/-! ### Glyphs and strings (R152, R153) -/

/-- With a cleared framebuffer, drawing the pixels of a figure turns on the figure's pixels on the screen, and changes
nothing else. -/
theorem draw_turns_on {ps : List (Int × Int)} {Covers : Int → Int → Prop}
    (figure : ∀ u v, (u, v) ∈ ps ↔ Covers u v) {s : State} (cleared : s.fbCleared = true) :
    ∃ t, draw ps true s = .next t ∧ t = { s with fb := t.fb } ∧
      (∀ u v, pixelAt t.fb u v = true ↔ pixelAt s.fb u v = true ∨ (onScreen u v = true ∧ Covers u v)) ∧
      ∀ a, (∀ u v, onScreen u v = true → Covers u v → a ≠ pixelByte u v) → t.fb.read a = s.fb.read a := by
  refine ⟨_, draw_next ps true s cleared, rfl, fun u v => ?_, fun a other => ?_⟩
  · rw [pixelAt_paint_on, figure]
  · exact read_paint_other fun (u, v) drawn visible => other u v visible ((figure u v).1 drawn)

/-- Settles O31: the pixels that DCHAR draws are those its character covers. -/
theorem dcharTurnsOnItsGlyph : Obligations.DcharTurnsOnItsGlyph := by
  intro x y k c s scale cleared
  rw [exec_dchar_eq_draw scale]
  exact draw_turns_on (mem_charPixels _ _ _ _ c) cleared

/-- Settles O32: the pixels that DTEXT draws are those its characters cover. -/
theorem dtextTurnsOnItsCharacters : Obligations.DtextTurnsOnItsCharacters := by
  intro x y k str s scale cleared
  rw [exec_dtext_eq_draw scale]
  exact draw_turns_on (mem_textPixels_iff _ _ _ _ str) cleared

/-! ### An unmapped character keeps the layout (R154) -/

/-- A string after another is drawn from the cursor that the first one leaves, whatever its characters are (R153). -/
theorem textPixels_append (P : Params) (cx y : Int) (k : Nat) (before after : List Byte) :
    textPixels P cx y k (before ++ after) = textPixels P cx y k before ++
      textPixels P (cx + (before.length * (P.glyphAdvance * k) : Nat)) y k after := by
  induction before generalizing cx with
  | nil => simp [textPixels]
  | cons c cs ih =>
    have cursor : cx + (P.glyphAdvance * k : Nat) + (cs.length * (P.glyphAdvance * k) : Nat) =
        cx + ((c :: cs).length * (P.glyphAdvance * k) : Nat) := by
      rw [List.length_cons]
      push_cast
      ring
    rw [List.cons_append, textPixels, textPixels, ih, cursor, List.append_assoc]

theorem not_charCovers_of_unmapped {P : Params} {c : Byte} (unmapped : fontEntry P.font c = none) (x y : Int) (k : Nat)
    (u v : Int) : ¬CharCovers P x y k c u v := by
  rintro ⟨e, mapped, -⟩
  exact Option.some_ne_none e (mapped.symm.trans unmapped)

/-- Of two strings that differ in one character, each has the pixels of the other that neither of the two characters
covers at that place. -/
theorem mem_textPixels_replace {P : Params} {x y : Int} {k : Nat} {before : List Byte} (after : List Byte) {c c' : Byte}
    {u v : Int}
    (old : ¬CharCovers P (x + ((before.length * (P.glyphAdvance * k) : Nat) : Int)) y k c u v)
    (new : ¬CharCovers P (x + ((before.length * (P.glyphAdvance * k) : Nat) : Int)) y k c' u v) :
    (u, v) ∈ textPixels P x y k (before ++ c :: after) ↔ (u, v) ∈ textPixels P x y k (before ++ c' :: after) := by
  simp only [textPixels_append, textPixels, List.mem_append, mem_charPixels, old, new]

/-- Settles O35: a pixel outside the replaced glyph lies in both strings or in neither. -/
theorem layoutIsStableUnderUnmapping : Obligations.LayoutIsStableUnderUnmapping := by
  intro P m x y k before after c c' u v unmapped differs
  by_contra uncovered
  have same := mem_textPixels_replace after uncovered (not_charCovers_of_unmapped unmapped _ y k u v)
  exact differs (by simp only [pixelAt_paint, same])

end Sys2Proof.Machine


/-! PROOFS of the gate engine family (44_gate_engine.md): what GEVAL leaves (R161), what each gate family computes of its
rows (R162 to R166), and that four of the five give complementary outputs (R167). -/

namespace Sys2Proof.Machine

/-! ### Counting rows (R15) -/

@[simp] theorem count_nil : count [] = 0 := rfl

@[simp] theorem count_cons (b : Bool) (r : List Bool) : count (b :: r) = b.toNat + count r := by
  cases b with
  | false => simp [count]
  | true => simp [count, Nat.add_comm]

theorem count_eq_length_iff {r : List Bool} : count r = r.length ↔ ∀ b ∈ r, b = true :=
  List.length_filter_eq_length_iff

theorem count_pos_iff {r : List Bool} : 1 ≤ count r ↔ ∃ b ∈ r, b = true :=
  List.length_filter_pos_iff

@[simp] theorem parity_nil : parity [] = false := rfl

theorem parity_cons (b : Bool) (r : List Bool) : parity (b :: r) = (b ^^ parity r) := by
  cases b with
  | false => simp [parity]
  | true =>
    have flips : (1 + count r) % 2 = 1 ↔ ¬count r % 2 = 1 := by omega
    rw [parity, count_cons, Bool.toNat_true, decide_eq_decide.2 flips, decide_not, Bool.true_xor, parity]

/-! ### The gate families (R162 to R167) -/

theorem gate_andNand_y (r : List Bool) : (gate .andNand r).1 = r.all id := by
  rw [Bool.eq_iff_iff, List.all_eq_true]
  exact decide_eq_true_iff.trans count_eq_length_iff

theorem gate_orNor_y (r : List Bool) : (gate .orNor r).1 = r.any id := by
  rw [Bool.eq_iff_iff, List.any_eq_true]
  exact decide_eq_true_iff.trans count_pos_iff

theorem gate_xorXnor_y (r : List Bool) : (gate .xorXnor r).1 = parity r := rfl

theorem gate_majMin_y (r : List Bool) : (gate .majMin r).1 = true ↔ threshold r.length ≤ count r :=
  decide_eq_true_iff

theorem gate_dualNot (a b c : Bool) (r : List Bool) : gate .dualNot (a :: b :: c :: r) = (!b, !c) := rfl

theorem gate_complement {f : Family} (shared : f ≠ .dualNot) (r : List Bool) : (gate f r).2 = !(gate f r).1 := by
  cases f with
  | dualNot => exact absurd rfl shared
  | andNand | orNor | xorXnor | majMin => rfl

/-! ### GEVAL (R161) -/

/-- The first three rows are in scope in both modes (R160). -/
theorem rowsInScope_eq_cons (s : State) :
    rowsInScope s = s.in1 :: s.in2 :: s.in3 :: if s.displayPresent then [] else [s.in4] := by
  cases h : s.displayPresent <;> simp [rowsInScope, h]

theorem exec_geval_of_probed {s : State} (probed : s.probed = true) : exec .geval s = .next (evalGate s) :=
  execGeval_eq_next.2 ⟨probed, rfl⟩

@[simp] theorem evalGate_y (s : State) : (evalGate s).y = (gate s.family (rowsInScope s)).1 := rfl

@[simp] theorem evalGate_yb (s : State) : (evalGate s).yb = (gate s.family (rowsInScope s)).2 := rfl

/-- What GEVAL leaves for the four families of one shared function, in each mode. -/
theorem exec_geval_complementary {s : State} (probed : s.probed = true) {f : Family} (family : s.family = f)
    (shared : f ≠ .dualNot) :
    ∃ t, exec .geval s = .next t ∧ t.yb = !t.y ∧
      (s.displayPresent = true → t.y = (gate f [s.in1, s.in2, s.in3]).1) ∧
      (s.displayPresent = false → t.y = (gate f [s.in1, s.in2, s.in3, s.in4]).1) := by
  subst family
  refine ⟨evalGate s, exec_geval_of_probed probed, gate_complement shared _, fun display => ?_, fun noDisplay => ?_⟩
  · simp [rowsInScope, display]
  · simp [rowsInScope, noDisplay]

/-- Settles O36. -/
theorem andNandIsTheAndOfTheRows : Obligations.AndNandIsTheAndOfTheRows := by
  intro s probed family
  obtain ⟨t, completes, complement, three, four⟩ := exec_geval_complementary probed family (by decide)
  refine ⟨t, completes, complement, fun display => ?_, fun noDisplay => ?_⟩
  · simp [three display, gate_andNand_y, Bool.and_assoc]
  · simp [four noDisplay, gate_andNand_y, Bool.and_assoc]

/-- Settles O37. -/
theorem orNorIsTheOrOfTheRows : Obligations.OrNorIsTheOrOfTheRows := by
  intro s probed family
  obtain ⟨t, completes, complement, three, four⟩ := exec_geval_complementary probed family (by decide)
  refine ⟨t, completes, complement, fun display => ?_, fun noDisplay => ?_⟩
  · simp [three display, gate_orNor_y, Bool.or_assoc]
  · simp [four noDisplay, gate_orNor_y, Bool.or_assoc]

/-- Settles O38: each row at 1 flips the parity of the others. -/
theorem xorXnorIsTheParityOfTheRows : Obligations.XorXnorIsTheParityOfTheRows := by
  intro s probed family
  obtain ⟨t, completes, complement, three, four⟩ := exec_geval_complementary probed family (by decide)
  refine ⟨t, completes, complement, fun display => ?_, fun noDisplay => ?_⟩
  · simp [three display, gate_xorXnor_y, parity_cons]
  · simp [four noDisplay, gate_xorXnor_y, parity_cons]

/-- Settles O39: the thresholds are 2 of 3 and 3 of 4. -/
theorem majMinIsTheMajorityOfTheRows : Obligations.MajMinIsTheMajorityOfTheRows := by
  intro s probed family
  obtain ⟨t, completes, complement, three, four⟩ := exec_geval_complementary probed family (by decide)
  refine ⟨t, completes, complement, fun display => ?_, fun noDisplay => ?_⟩
  · rw [three display, gate_majMin_y]
    simp [threshold, Nat.add_assoc]
  · rw [four noDisplay, gate_majMin_y]
    simp [threshold, Nat.add_assoc]

/-- Settles O40: the second and third rows are in scope in both modes. -/
theorem dualNotInvertsRowsTwoAndThree : Obligations.DualNotInvertsRowsTwoAndThree := by
  intro s probed family
  have outputs : gate s.family (rowsInScope s) = (!s.in2, !s.in3) := by
    rw [family, rowsInScope_eq_cons, gate_dualNot]
  exact ⟨evalGate s, exec_geval_of_probed probed, by rw [evalGate_y, outputs], by rw [evalGate_yb, outputs]⟩

/-- Settles O41: past its check GEVAL is `driveOutputs` of the gate of the rows in scope. -/
theorem gevalDrivesEachOutputOnThreePins : Obligations.GevalDrivesEachOutputOnThreePins := by
  intro s probed
  exact ⟨_, _, exec_geval_of_probed probed, rfl⟩

end Sys2Proof.Machine

/-! PROOFS of the configuration family (45_config_fsm.md): what NVUPD writes (R173), when CSTEP advances and persists the
family (R172), and that five presses close its cycle (R174). -/

namespace Sys2Proof.Machine

/-! ### NVUPD (R173) -/

/-- Settles O45: NVUPD is one compare-then-write update of the store. -/
theorem nvupdWritesOnlyADifferentByte : Obligations.NvupdWritesOnlyADifferentByte := by
  intro v s
  have update : exec (.nvupd v) s = .next (nvUpdate Config.params v s) := rfl
  rw [update, nvUpdate_eq]
  constructor
  · rintro rfl
    simp
  · intro differs
    simp [differs]

/-! ### CSTEP (R172) -/

theorem risingEdge_eq_true_iff {b : Bool} {s : State} : risingEdge b s = true ↔ s.prevBtn = false ∧ b = true := by
  simp [risingEdge]

theorem risingEdge_eq_false_iff {b : Bool} {s : State} : risingEdge b s = false ↔ s.prevBtn = true ∨ b = false := by
  simp [risingEdge, or_iff_not_imp_left]

theorem exec_cstep_of_display {s : State} (display : s.displayPresent = true) (b : Bool) :
    exec (.cstep b) s = .next (buttonStep Config.params b s) :=
  execCstep_eq_next.2 ⟨display, rfl⟩

/-- Settles O44: past its check CSTEP is the button's step, and the next family's code is the next code modulo 5. -/
theorem cstepAdvancesOnARisingEdge : Obligations.CstepAdvancesOnARisingEdge := by
  intro b s display
  rw [exec_cstep_of_display display]
  constructor
  · intro still
    rw [buttonStep_noEdge _ (risingEdge_eq_false_iff.2 still)]
  · rintro up rfl
    exact ⟨s.family.next, Family.code_next _, congrArg _ (buttonStep_edge _ (risingEdge_eq_true_iff.2 ⟨up, rfl⟩))⟩

/-! ### Presses of the button (R174) -/

/-- What one press and release of the button leave: the next family, persisted, and the button up again. -/
def pressed (s : State) : State :=
  { s with
    prevBtn := false
    family := s.family.next
    nv := s.family.next.code
    trace := s.trace ++ updateEvents s.nv s.family.next.code }

/-- With a display and the button up, the rising edge of a press advances the family and its release does nothing
(R172). -/
theorem runInstrs_press {s : State} (display : s.displayPresent = true) (up : s.prevBtn = false) (is : List Instr) :
    runInstrs (.cstep true :: .cstep false :: is) s = runInstrs is (pressed s) := by
  have press : exec (.cstep true) s = .next { pressed s with prevBtn := true } := by
    rw [exec_cstep_of_display display, buttonStep_edge _ (risingEdge_eq_true_iff.2 ⟨up, rfl⟩)]
    simp [pressed, updateEvents]
  have release : exec (.cstep false) { pressed s with prevBtn := true } = .next (pressed s) := by
    rw [exec_cstep_of_display (s := { pressed s with prevBtn := true }) display,
      buttonStep_noEdge _ (risingEdge_eq_false_iff.2 (.inr rfl))]
    rfl
  simp only [runInstrs, press, release]

/-- Any number of presses complete. -/
theorem runInstrs_presses (n : Nat) {s : State} (display : s.displayPresent = true) (up : s.prevBtn = false) :
    runInstrs (List.replicate n [.cstep true, .cstep false]).flatten s = .next (pressed^[n] s) := by
  induction n generalizing s with
  | zero => rfl
  | succ n ih =>
    rw [List.replicate_succ, List.flatten_cons, Function.iterate_succ_apply]
    exact (runInstrs_press display up _).trans (ih display rfl)

/-- A store that does not hold the next family's code is written by every press: the first press makes it hold the
family's code, and no family has the code of the next one (R173). -/
theorem trace_presses (n : Nat) {s : State} (differs : s.nv ≠ s.family.next.code) :
    ∃ es, (pressed^[n] s).trace = s.trace ++ es ∧ rawWrites es = n := by
  induction n generalizing s with
  | zero => exact ⟨[], by simp⟩
  | succ n ih =>
    obtain ⟨es, appended, writes⟩ := ih (s := pressed s) (Family.code_next_ne _)
    refine ⟨updateEvents s.nv s.family.next.code ++ es, ?_, ?_⟩
    · rw [Function.iterate_succ_apply, appended, ← List.append_assoc]
      rfl
    · have once : rawWrites (updateEvents s.nv s.family.next.code) = 1 := by simp [updateEvents, differs]
      rw [rawWrites_append, once, writes, Nat.add_comm]

/-- A store in step with the family, or with a byte that names no family, does not hold the next family's code. -/
theorem nv_ne_code_next {s : State} (stored : s.nv = s.family.code ∨ Family.ofByte s.nv = none) :
    s.nv ≠ s.family.next.code := by
  rcases stored with inStep | invalid
  · rw [inStep]
    exact Family.code_next_ne _
  · intro next
    simp [next] at invalid

/-- Settles O46: five steps close the family cycle (`Family.next_five`), and each press writes the store. -/
theorem fivePressesReturnTheFamily : Obligations.FivePressesReturnTheFamily := by
  intro s display up stored
  obtain ⟨es, appended, writes⟩ := trace_presses 5 (nv_ne_code_next stored)
  have family : (pressed^[5] s).family = s.family := Family.next_five _
  have persisted : (pressed^[5] s).nv = (pressed^[5] s).family.code := rfl
  exact ⟨pressed^[5] s, es, runInstrs_presses 5 display up, family, by rw [persisted, family], appended, writes⟩

end Sys2Proof.Machine

/-! PROOFS of the sequencer family (46_sequencer_and_clients.md): the whole state BOOT leaves for each answer to its
probe (R180), the whole state CYCLE leaves without and with a display (R182), and what the status indicators
show (R188). -/

namespace Sys2Proof.Machine

/-! ### BOOT (R180) -/

/-- BOOT's probe sees the answers that were next before BOOT: what comes before it reads no pin. -/
theorem levelAt_bootPrepared (P : Params) (s : State) : levelAt (loadFamily P (allPinsPlain s)) = levelAt s := by
  rw [bootPrepared_eq]
  exact levelAt_congr rfl rfl

/-- If the probe ends without a display, so does BOOT. -/
theorem bootSession_of_no_display {s t : State}
    (probed : probe Config.params (loadFamily Config.params (allPinsPlain s)) = t)
    (absent : t.displayPresent = false) : bootSession Config.params s = t := by
  simp only [bootSession, delay_eq, probed, absent, Bool.false_eq_true, if_false]

/-- If the probe ends with a display after `n` reads, BOOT goes on with DINIT's frame, sampled from read `n` on. -/
theorem bootSession_of_display {s t : State} (n : Nat)
    (probed : probe Config.params (loadFamily Config.params (allPinsPlain s)) = t)
    (present : t.displayPresent = true)
    (answers : t.pinAnswers = s.pinAnswers.drop n) (reads : t.pinReads = s.pinReads + n) :
    bootSession Config.params s =
      { t with
        pinMode := wiresSet t.pinMode .pullUp .pullUp
        latchClk := false
        latchDat := false
        trace := t.trace ++ txnEvents (levelAt s datPin) n t.dispAddr initBytes
        pinAnswers := s.pinAnswers.drop (n + (initBytes.length + 1))
        pinReads := s.pinReads + (n + (initBytes.length + 1)) } := by
  have frame := initDisplay_eq t n (levelAt s datPin) fun i => (levelAt_after datPin n i answers reads).symm
  rw [answers, List.drop_drop, reads, Nat.add_assoc] at frame
  rw [bootSession, delay_eq, probed, if_pos present, frame]

/-- The wires released on all-plain pins and given back are plain again. -/
theorem wiresSet_plain : wiresSet (Vector.replicate 10 .plain) .plain .plain = Vector.replicate 10 .plain := by
  decide

/-- Settles O47: the probe decides by its first two samples, and only a display found gets DINIT's frame. -/
theorem bootDecidesTheSession : Obligations.BootDecidesTheSession := by
  intro s unprobed owned
  have probed := probe_eq Config.params (loadFamily Config.params (allPinsPlain s))
  rw [levelAt_bootPrepared] at probed
  refine ⟨fun first => ?_, fun first second => ?_, fun first second => ?_⟩ <;>
    refine execBoot_eq_next.2 ⟨unprobed, owned, ?_⟩
  · rw [if_neg (by simp [first])] at probed
    rw [bootSession_of_display 1 probed rfl (by rw [bootPrepared_eq]) (by rw [bootPrepared_eq])]
    simp only [bootPrepared_eq, wiresSet_wiresSet]
  · rw [if_pos first, if_neg (by simp [second])] at probed
    rw [bootSession_of_display 2 probed rfl (by rw [bootPrepared_eq]) (by rw [bootPrepared_eq])]
    simp only [bootPrepared_eq, wiresSet_wiresSet]
  · rw [if_pos first, if_pos second] at probed
    rw [bootSession_of_no_display probed rfl]
    simp only [bootPrepared_eq, wiresSet_plain]

/-! ### CYCLE without a display (R182) -/

/-- GEVAL without a display takes four rows (R161). -/
theorem evalGate_noDisplay {s : State} {y yb : Bool} (absent : s.displayPresent = false)
    (outputs : (y, yb) = gate s.family [s.in1, s.in2, s.in3, s.in4]) : evalGate s = driveOutputs y yb s := by
  have rows : rowsInScope s = [s.in1, s.in2, s.in3, s.in4] := if_neg (by simp [absent])
  rw [evalGate, rows, ← outputs]

/-- GEVAL with a display takes three rows (R161). -/
theorem evalGate_display {s : State} {y yb : Bool} (present : s.displayPresent = true)
    (outputs : (y, yb) = gate s.family [s.in1, s.in2, s.in3]) : evalGate s = driveOutputs y yb s := by
  have rows : rowsInScope s = [s.in1, s.in2, s.in3] := if_pos present
  rw [evalGate, rows, ← outputs]

theorem execCycle_noDisplay {s : State} (probed : s.probed = true) (absent : s.displayPresent = false)
    (owner : s.owner = .sampler) :
    exec .cycle s = .next (evalGate (sampleRow4 Config.params (sampleRows Config.params s))) :=
  execCycle_eq_next.2 ⟨probed, by simp [absent, owner], runCycle_noDisplay _ absent⟩

theorem execCycle_display {s : State} (probed : s.probed = true) (present : s.displayPresent = true)
    (owner : s.owner = .driver) :
    exec .cycle s = .next
      (showFrame Config.params (evalGate (sampleButton Config.params (sampleRows Config.params s)))) :=
  execCycle_eq_next.2 ⟨probed, by simp [present, owner], runCycle_display _ present⟩

/-- What sampling the four rows does (R182). -/
theorem sampleRow4_sampleRows_eq (s : State) :
    sampleRow4 Config.params (sampleRows Config.params s) =
      { s with
        in1 := rowValue s 0 row1
        in2 := rowValue s (row2Start s) row2
        in3 := rowValue s (row3Start s) row3
        in4 := rowValue s (rowsEnd s) row4
        rowsSet := true
        trace := s.trace ++ rowEvents s 0 row1 ++ rowEvents s (row2Start s) row2 ++
          rowEvents s (row3Start s) row3 ++ rowEvents s (rowsEnd s) row4
        pinAnswers := s.pinAnswers.drop (afterRow s (rowsEnd s) row4)
        pinReads := s.pinReads + afterRow s (rowsEnd s) row4 } := by
  rw [sampleRow4_eq, sampleRows_eq]

/-- Settles O48: the four rows sampled one after the other, and the gate of them. -/
theorem cycleWithoutDisplaySamplesFourRows : Obligations.CycleWithoutDisplaySamplesFourRows := by
  intro s probed absent owner
  obtain ⟨⟨y, yb⟩, outputs⟩ : ∃ o, o = gate s.family [rowValue s 0 row1, rowValue s (row2Start s) row2,
      rowValue s (row3Start s) row3, rowValue s (rowsEnd s) row4] := ⟨_, rfl⟩
  refine ⟨_, _, _, _, y, yb, rfl, rfl, rfl, rfl, outputs, ?_⟩
  rw [execCycle_noDisplay probed absent owner, sampleRow4_sampleRows_eq, evalGate_noDisplay (y := y) (yb := yb)]
  · simp only [driveOutputs]
  · exact absent
  · simpa only using outputs

/-! ### CYCLE with a display (R182) -/

/-- CSTEP with and without an edge in one equation (45_config_fsm.md R172). -/
theorem buttonStep_eq {b edge : Bool} {s : State} (h : risingEdge b s = edge) :
    buttonStep Config.params b s =
      { s with
        prevBtn := b
        family := if edge then s.family.next else s.family
        nv := if edge then s.family.next.code else s.nv
        trace := s.trace ++ if edge then updateEvents s.nv s.family.next.code else [] } := by
  cases edge
  · rw [buttonStep_noEdge _ h]
    simp
  · rw [buttonStep_edge _ h]
    simp [updateEvents]

/-- The family after CSTEP in a CYCLE from `s`. -/
def cycleFamily (s : State) : Family := if cycleEdge s then s.family.next else s.family

/-- What sampling rows 1 to 3 and the button does, CSTEP included (R182). -/
theorem sampleButton_sampleRows_eq (s : State) :
    sampleButton Config.params (sampleRows Config.params s) =
      { s with
        in1 := rowValue s 0 row1
        in2 := rowValue s (row2Start s) row2
        in3 := rowValue s (row3Start s) row3
        in4 := false
        rowsSet := true
        prevBtn := cycleButton s
        family := cycleFamily s
        nv := if cycleEdge s then (cycleFamily s).code else s.nv
        trace := s.trace ++ rowEvents s 0 row1 ++ rowEvents s (row2Start s) row2 ++
          rowEvents s (row3Start s) row3 ++ sampleEvents s (rowsEnd s) [buttonPin] ++
          (if cycleEdge s then updateEvents s.nv (cycleFamily s).code else [])
        pinAnswers := s.pinAnswers.drop (rowsEnd s + 3)
        pinReads := s.pinReads + (rowsEnd s + 3) } := by
  rw [sampleButton_eq, buttonStep_eq (edge := cycleEdge s)]
  · rw [sampleRows_eq]
    cases edge : cycleEdge s <;> simp [cycleFamily, edge, sampleEvents]
  · exact risingEdge_cycleButton rfl

/-- What DCLEAR, the diagram and DFLUSH do after `n` reads from `s`, the frames' samples numbered from `s` (R182). -/
theorem showFrame_eq {s t : State} (n : Nat) {drawn : Memory}
    (picture : (diagramOf Config.params t).foldl (paintOp Config.params) [] = drawn)
    (answers : t.pinAnswers = s.pinAnswers.drop n) (reads : t.pinReads = s.pinReads + n) :
    showFrame Config.params t =
      { t with
        fb := drawn
        fbCleared := true
        pinMode := wiresSet t.pinMode .pullUp .pullUp
        latchClk := false
        latchDat := false
        trace := t.trace ++ txnEvents (levelAt s datPin) n t.dispAddr windowBytes ++
          txnEvents (levelAt s datPin) (n + (windowBytes.length + 1)) t.dispAddr (dataBytes drawn)
        pinAnswers := s.pinAnswers.drop (n + (windowBytes.length + 1) + ((dataBytes drawn).length + 1))
        pinReads := s.pinReads + (n + (windowBytes.length + 1) + ((dataBytes drawn).length + 1)) } := by
  have cleared : levelAt { clearFrame t with fb := drawn } = levelAt t := levelAt_congr rfl rfl
  have frames (k : Nat) (bs : List Byte) := txnEvents_after n k t.dispAddr bs answers reads
  have window : Config.params.cmdPrefix ++ Config.params.winSeq = windowBytes := rfl
  simp only [showFrame, clearFrame_fb, picture, flushFrame_eq, ← dataBytes_eq, window, cleared]
  simp [frames, answers, reads, Nat.add_assoc]

/-- Settles O49: rows, button and CSTEP, then the gate of the family after it, then the diagram and its flush. -/
theorem cycleWithDisplayDrawsTheDiagram : Obligations.CycleWithDisplayDrawsTheDiagram := by
  intro s probed present owner
  obtain ⟨⟨y, yb⟩, outputs⟩ : ∃ o, o = gate (cycleFamily s) [rowValue s 0 row1, rowValue s (row2Start s) row2,
      rowValue s (row3Start s) row3] := ⟨_, rfl⟩
  obtain ⟨drawn, picture⟩ : ∃ m, m = (Config.params.diagram (cycleFamily s) (rowValue s 0 row1)
      (rowValue s (row2Start s) row2) (rowValue s (row3Start s) row3) y yb).foldl (paintOp Config.params) [] :=
    ⟨_, rfl⟩
  refine ⟨_, _, _, cycleFamily s, y, yb, drawn, rfl, rfl, rfl, rfl, outputs, picture, ?_⟩
  rw [execCycle_display probed present owner, sampleButton_sampleRows_eq,
    evalGate_display (y := y) (yb := yb), showFrame_eq (s := s) (drawn := drawn) (rowsEnd s + 3)]
  · simp only [driveOutputs, outEvents]
  · simp only [diagramOf, driveOutputs, picture]
  · rfl
  · rfl
  · exact present
  · simpa only using outputs

/-! ### The status indicators (R188) -/

theorem ledFor_true (c : LedColour) : ledFor c true = .lit c := rfl

/-- Settles O60: each clause reads one slot of the view. -/
theorem statusIndicatorsFollowTheMapping : Obligations.StatusIndicatorsFollowTheMapping := by
  intro s
  refine ⟨fun row1 => ?_, fun row2 => ?_, fun row3 => ?_, fun display => if_pos display, fun absent row4 => ?_, rfl,
    fun high inverters => ?_, fun high inverters => ?_, fun high => ?_⟩ <;> rw [statusView]
  · rw [row1, ledFor_true]
  · rw [row2, ledFor_true]
  · rw [row3, ledFor_true]
  · simp only [absent, row4, ledFor_true, Bool.false_eq_true, if_false]
  · simp only [high, if_pos inverters, ledFor_true]
  · simp only [high, if_neg inverters, ledFor_true]
  · rw [high, ledFor_true]

end Sys2Proof.Machine

/-! PROOFS of the exceptions family (60_exceptions.md), the reset family (70_reset_and_hazards.md) and the rest: what a
failed probe (R201), a cold store (R202) and an unmapped character (R204) fall back to, what the sequencer issues from reset
on (R220), which reads come before the first write (R221, R223), and written command words (30_encoding.md). -/

namespace Sys2Proof.Machine

/-! ### Fallbacks (60_exceptions.md R201, R202, R204) -/

/-- Settles O18: two samples without an acknowledge leave the probe no candidate. -/
theorem bprobeFallsBackToPlainInputs : Obligations.BprobeFallsBackToPlainInputs := by
  intro s unprobed owned first second
  exact execBprobe_eq_next.2 ⟨unprobed, owned, by rw [probe_eq, if_pos first, if_pos second]⟩

/-- Settles O43: the family CLOAD selects is the one the stored byte names, or else the default. -/
theorem cloadTakesTheStoredFamilyOrTheDefault : Obligations.CloadTakesTheStoredFamilyOrTheDefault := by
  intro s
  refine ⟨_, congrArg _ (loadFamily_eq Config.params s), fun valid => ?_, fun invalid => ?_⟩
  · obtain ⟨f, named, code⟩ := Family.ofByte_le valid
    rw [named, Option.getD_some, code]
  · rw [Family.ofByte_gt invalid, Option.getD_none]

theorem charPixels_of_unmapped {P : Params} {c : Byte} (unmapped : fontEntry P.font c = none) (x y : Int) (k : Nat) :
    charPixels P x y k c = [] :=
  List.eq_nil_iff_forall_not_mem.2 fun (u, v) drawn =>
    not_charCovers_of_unmapped unmapped x y k u v ((mem_charPixels P x y k c u v).1 drawn)

/-- Settles O34: a character without pixels only moves the cursor. -/
theorem unmappedCharacterKeepsTheLayout : Obligations.UnmappedCharacterKeepsTheLayout := by
  intro P cx y k c cs unmapped
  have blank := charPixels_of_unmapped unmapped cx y k
  refine ⟨blank, ?_, fun s => ?_⟩
  · rw [textPixels, blank, List.nil_append]
  · rw [blank]
    exact draw_offScreen true s (List.forall_mem_nil _)

/-! ### Drawing before the first clear (70_reset_and_hazards.md R223) -/

/-- Before the first DCLEAR, drawing the pixels of a figure is refused if the figure reaches the screen, and does nothing
if it does not. -/
theorem draw_before_clear {ps : List (Int × Int)} {Covers : Int → Int → Prop}
    (figure : ∀ u v, (u, v) ∈ ps ↔ Covers u v) (on : Bool) {s : State} (uncleared : s.fbCleared = false) :
    ((∃ u v, onScreen u v = true ∧ Covers u v) → draw ps on s = .refused .framebufferUnwritten) ∧
      ((¬∃ u v, onScreen u v = true ∧ Covers u v) → draw ps on s = .next s) := by
  constructor
  · rintro ⟨u, v, visible, covered⟩
    exact draw_unwritten on uncleared ⟨(u, v), (figure u v).2 covered, visible⟩
  · intro clipped
    refine draw_offScreen on s fun (u, v) drawn => Bool.eq_false_iff.2 fun visible => ?_
    exact clipped ⟨u, v, visible, (figure u v).1 drawn⟩

/-- Settles O29: each drawing operation draws the pixels of its figure. -/
theorem drawingBeforeTheFirstClearIsRefused : Obligations.DrawingBeforeTheFirstClearIsRefused := by
  intro s uncleared
  refine ⟨fun present owned => ?_, fun x y on => ?_, fun x0 x1 y touches => ?_, fun x0 x1 y clipped => ?_,
    fun x y0 y1 touches => ?_, fun x y0 y1 clipped => ?_, fun x y k c scale => ?_, fun x y k str scale => ?_⟩
  · simp [exec, execDflush, present, owned, uncleared]
  · change draw [(x.toInt, y.toInt)] on s = _
    split
    · next visible => exact draw_unwritten on uncleared ⟨_, List.mem_singleton_self _, visible⟩
    · next hidden => exact draw_offScreen on s (List.forall_mem_singleton.2 (Bool.eq_false_iff.2 hidden))
  · obtain ⟨u, low, high, visible⟩ := touches
    exact (draw_before_clear (mem_hlinePixels _ _ _) true uncleared).1 ⟨u, _, visible, rfl, low, high⟩
  · refine (draw_before_clear (mem_hlinePixels _ _ _) true uncleared).2 ?_
    rintro ⟨u, _, visible, rfl, low, high⟩
    exact clipped ⟨u, low, high, visible⟩
  · obtain ⟨v, low, high, visible⟩ := touches
    exact (draw_before_clear (mem_vlinePixels _ _ _) true uncleared).1 ⟨_, v, visible, rfl, low, high⟩
  · refine (draw_before_clear (mem_vlinePixels _ _ _) true uncleared).2 ?_
    rintro ⟨_, v, visible, rfl, low, high⟩
    exact clipped ⟨v, low, high, visible⟩
  · rw [exec_dchar_eq_draw scale]
    exact draw_before_clear (mem_charPixels _ _ _ _ c) true uncleared
  · rw [exec_dtext_eq_draw scale]
    exact draw_before_clear (mem_textPixels_iff _ _ _ _ str) true uncleared

/-! ### The sequencer from reset on (R220) -/

/-- Settles O4. -/
theorem stepWithoutCommandRunsTheSequencer : Obligations.StepWithoutCommandRunsTheSequencer :=
  fun _ idle => step_no_command idle

/-- Settles O54: the reset state has no trace yet, and neither CLOAD nor the probe has run. -/
theorem resetIsReadyForTheSequencer : Obligations.ResetIsReadyForTheSequencer :=
  ⟨⟨sessionInvariantHoldsAtReset, rfl⟩, nofun, rfl, ⟨fun _ => .inr rfl, nofun⟩⟩

/-! ### Reads before the first write (R221) -/

/-- What the sequencer issues reads no register that is still unwritten, once CLOAD has run with the probe. -/
theorem LoadedWithProbe.readsUnwritten_sequencerInstr {s : State} (h : LoadedWithProbe s) :
    readsUnwritten (sequencerInstr s) s = false := by
  rw [sequencerInstr]
  cases probed : s.probed
  · rfl
  · simp [readsUnwritten, h probed]

/-- The probe, once made, is made for the session, whatever it found (41_bit_protocol.md R114). -/
theorem probe_probed (P : Params) (s : State) : (probe P s).probed = true := by
  rw [probe_eq]
  split_ifs <;> rfl

/-- With row 1 at 0, AND_NAND gives Y 0 and Yb 1 in both modes (44_gate_engine.md R162). -/
theorem evalGate_of_andNand_of_low {s : State} (family : s.family = .andNand) (low : s.in1 = false) :
    (evalGate s).y = false ∧ (evalGate s).yb = true := by
  have y : (evalGate s).y = false := by
    rw [evalGate_y, family, gate_andNand_y, rowsInScope_eq_cons, low]
    rfl
  have yb : (evalGate s).yb = !(evalGate s).y := by
    rw [evalGate_yb, evalGate_y, gate_complement (by simp [family])]
  exact ⟨y, by rw [yb, y, Bool.not_false]⟩

/-- Settles O42: a run of the sequencer keeps CLOAD done with the probe (O53), and a BPROBE issued alone leaves family, rows
and button at their reset values. -/
theorem readsBeforeTheFirstWrite : Obligations.ReadsBeforeTheFirstWrite := by
  constructor
  · intro s t k ready loaded runs
    obtain ⟨u, completes, -, keeps⟩ := sequencerNeverStops s ready k
    cases completes.symm.trans runs
    exact (keeps loaded).readsUnwritten_sequencerInstr
  · intro v answers t probes
    have atReset : SessionInv { State.resetWith v with pinAnswers := answers } := { SessionInv.at_resetWith v with }
    have inv : SessionInv t := atReset.after_exec probes
    have probed : t.probed = true := by
      obtain ⟨-, -, rfl⟩ := execBprobe_eq_next.1 probes
      exact probe_probed _ _
    have frame := exec_writes probes
    have family : t.family = .andNand := by rw [frame]; rfl
    have in1 : t.in1 = false := by rw [frame]; rfl
    have up : t.prevBtn = false := by rw [frame]; rfl
    refine ⟨⟨_, exec_geval_of_probed probed, evalGate_of_andNand_of_low family in1⟩,
      ⟨_, execCycle_eq_next.2 ⟨probed, inv.owner_iff probed, rfl⟩⟩,
      fun present => ⟨_, exec_cstep_of_display present true, ?_⟩⟩
    rw [buttonStep_edge _ (risingEdge_eq_true_iff.2 ⟨up, rfl⟩), family]
    exact ⟨rfl, rfl, rfl⟩

/-! ### Written command words (30_encoding.md) -/

/-- Settles O5: a word that decodes is not empty, so it is what is pending. -/
theorem stepRunsThePlacedWord : Obligations.StepRunsThePlacedWord := by
  intro s nbits w i rest read
  refine stepRunsThePendingCommand (s.withFetchWord nbits w) i rest (fun empty => ?_) read
  have noBytes : tableBytes nbits w = [] := empty
  rw [noBytes] at read
  cases read

/-- Settles O6: each word is the command word of its instruction, and the decoder reads those back. -/
theorem decodeReadsTheWrittenWords : Obligations.DecodeReadsTheWrittenWords := by
  refine ⟨?_, ?_, ?_, ?_, ?_, ?_, ?_, ?_⟩ <;> exact decode_eq_ok.2 ⟨by decide, by decide⟩

end Sys2Proof.Machine
